-- ==== Sys2Proof/Word.lean ====
section
/-! DEFINITION. The words the part moves: link bytes, samples, coefficients. -/

namespace Sys2Proof

/-- One byte of the control link (R175). -/
abbrev Byte := BitVec 8

/-- A sample of a highway slot, signed 16-bit linear in two's complement (R46). -/
abbrev Sample := BitVec 16

/-- A filter coefficient, Q15 in two's complement (R27). -/
abbrev Coeff := BitVec 16

end Sys2Proof
end

