-- ==== Sys2Proof/Config.lean ====
section
/-! DEFINITION. The figures of the part (00_scope.md, "Principal figures"). The spec leaves the value of no result open, so
there is no opaque constant here. -/

namespace Sys2Proof

/-- Highways (R46). -/
abbrev nHighways : Nat := 8
/-- Slots per highway (R46). -/
abbrev nSlots : Nat := 64
/-- Circuit positions (R46). -/
abbrev nPositions : Nat := 512
/-- Circuit records (R2). -/
abbrev nContexts : Nat := 384
/-- Segments of the pool (R27). -/
abbrev nSegments : Nat := 6144
/-- Taps of one segment (R27). -/
abbrev segTaps : Nat := 16
/-- The largest span, in segments (R30). -/
abbrev maxSpan : Nat := 64
/-- Taps of a shadow filter (R112). -/
abbrev nTaps : Nat := 1024
/-- Profiles (R165). -/
abbrev nProfiles : Nat := 16
/-- Search units (R112). -/
abbrev nUnits : Nat := 4
/-- Frames of a block (R47). -/
abbrev blockFrames : Nat := 8
/-- Tap-updates the scheduler may grant in one block (R86). -/
abbrev tapBudget : Nat := 49152
/-- Reference samples kept for a slot: the 1024 of R50 and the seven older ones that the earlier frames of the block saw at the
deepest delays (R73; log 13). -/
abbrev historyDepth : Nat := 1031

end Sys2Proof
end

