-- ==== Sys2Proof/Syntax.lean ====
section
/-! DEFINITION. The steps of the part: one constructor of `Instr` for each row of spec/opcode_table.json. The operands of a link
command are its message's fields in their message widths (R190), in range or not. -/

namespace Sys2Proof

/-- A direction of a call: receive (R_in to R_out) or send (S_in to S_out). -/
inductive Dir where
  | rx
  | tx
  deriving DecidableEq, Repr

/-- What a highway's sync input did in one frame (R52). -/
structure SyncMarks where
  /-- It marked the master boundary that opens the frame. -/
  atBoundary : Bool
  /-- It marked another point within the frame. -/
  elsewhere : Bool
  deriving DecidableEq, Repr

/-- The level fields of one direction in a SET PROFILE message (R190, bytes 21 to 36). -/
structure LevelMsg where
  target : BitVec 16
  gmin : BitVec 16
  gmax : BitVec 16
  g0 : BitVec 16
  deriving DecidableEq, Repr

/-- The body of a SET PROFILE message after its profile number (R190); the ignored bits are left out. -/
structure ProfileMsg where
  selHw : BitVec 4
  hwMask : BitVec 4
  selSlot : Byte
  slotMask : Byte
  matchEnable : Bool
  twoWindows : Bool
  searchAtBind : Bool
  toneEnable : Bool
  span : Byte
  b0 : Byte
  w0 : Byte
  w1 : Byte
  minSeg : Byte
  muAcq : Byte
  muTrack : Byte
  delta : BitVec 32
  tFar : BitVec 16
  tNear : BitVec 16
  nlp : BitVec 2
  rxMode : BitVec 2
  txMode : BitVec 2
  recovery : BitVec 2
  rx : LevelMsg
  tx : LevelMsg
  wMin : BitVec 32
  wRel : BitVec 32
  routing : BitVec 18
  deriving DecidableEq, Repr

/-- The steps of the part. Events name the highway `h`, context `c` or search unit `u` they happen to. -/
inductive Instr where
  /-- POWER_ON: the reset input is released (R47). -/
  | powerOn
  /-- FRAME: the input samples of the 512 slot positions and the sync marks of the eight highways (R48). -/
  | frame (rIn sIn : List Sample) (marks : List SyncMarks)
  /-- LOCK (R53). -/
  | lock (h : Nat)
  /-- SYNC_LOST (R53). -/
  | syncLost (h : Nat)
  /-- SYNC_BACK (R53). -/
  | syncBack (h : Nat)
  /-- BLOCK_BOUNDARY (R47). -/
  | blockBoundary
  /-- CONVERGENCE (R81). -/
  | convergence (c : Nat)
  /-- EXPIRY (R84). -/
  | expiry (c : Nat)
  /-- CUT (R132). -/
  | cut (c : Nat)
  /-- RECOVERY (R136). -/
  | recovery (c : Nat)
  /-- LEVEL (R162). -/
  | level (c : Nat) (d : Dir)
  /-- NOISE_FLOOR_RISE (R109). -/
  | noiseFloorRise (c : Nat)
  /-- STAMP_ADVANCE (R61). -/
  | stampAdvance
  /-- WINDOW_END (R145). -/
  | windowEnd (c : Nat)
  /-- TONE_ENTRY (R148). -/
  | toneEntry (c : Nat)
  /-- RELEASE (R150). -/
  | release (c : Nat)
  /-- SEARCH_COMPLETION (R119). -/
  | searchCompletion (u : Nat)
  /-- SEARCH_FAILURE (R125). -/
  | searchFailure (u : Nat)
  /-- READ: a read transaction of `n` whole bytes after its first byte 0x80, and `bits` further bits (R177). -/
  | read (n bits : Nat)
  /-- COMMAND_MESSAGE: the whole bytes clocked in by a transaction, and `bits` further bits (R175, R176). -/
  | commandMessage (bytes : List Byte) (bits : Nat)
  /-- BIND (R19). -/
  | bind (hw slot profile flags : Byte)
  /-- RETIRE (R20). -/
  | retire (hw slot : Byte)
  /-- ENGAGE (R22). -/
  | engage (hw slot : Byte)
  /-- HOLD (R23). -/
  | hold (hw slot : Byte)
  /-- RESUME (R24). -/
  | resume (hw slot : Byte)
  /-- RESTORE (R139). -/
  | restore (hw slot : Byte)
  /-- SEARCH (R25). -/
  | search (hw slot : Byte)
  /-- QUERY (R26). -/
  | query (hw slot : Byte)
  /-- AMEND SPAN (R39). -/
  | amendSpan (hw slot span : Byte)
  /-- AMEND WINDOWS (R37): first base and length, second base and length. -/
  | amendWindows (hw slot b1 l1 b2 l2 : Byte)
  /-- AMEND PROFILE (R174). -/
  | amendProfile (hw slot profile : Byte)
  /-- READ TAPS (R42): window operand and position. -/
  | readTaps (hw slot win pos : Byte)
  /-- WRITE TAPS (R43): window operand, position and 16 coefficients. -/
  | writeTaps (hw slot win pos : Byte) (coeffs : List Coeff)
  /-- READ POOL (R44). -/
  | readPool
  /-- SET PROFILE (R171). -/
  | setProfile (profile : Byte) (fields : ProfileMsg)
  /-- READ PROFILE (R173). -/
  | readProfile (profile : Byte)
  /-- CONFIGURE (R188): its five body bytes. -/
  | configure (enables routing modes sched unit : Byte)
  /-- READ CONFIG (R189). -/
  | readConfig
  /-- RESET HIGHWAY (R59). -/
  | resetHighway (hw : Byte)
  /-- RESET STAMP (R62). -/
  | resetStamp
  /-- FETCH NOTICE (R183). -/
  | fetchNotice
  deriving DecidableEq, Repr

end Sys2Proof
end

