-- ==== Sys2Proof/WellFormed.lean ====
section
/-! DEFINITION. Which terms of `Instr` are steps of the part: an event names a highway, context or unit that exists, a frame
carries one sample a slot position, a message its whole body. A byte operand is never ill-formed: a value outside its range is
refused by the command itself. -/

namespace Sys2Proof

/-- The highway exists (R46). -/
def highwayOk (h : Nat) : Bool := h < nHighways
/-- The context exists (R2). -/
def contextOk (c : Nat) : Bool := c < nContexts
/-- The search unit exists (R112). -/
def unitOk (u : Nat) : Bool := u < nUnits
/-- Fewer than eight bits were clocked after the last whole byte (R175). -/
def bitsOk (bits : Nat) : Bool := bits < 8

/-- The term is a step of the part. -/
def wellFormed : Instr → Bool
  | .powerOn => true
  | .frame rIn sIn marks => rIn.length = nPositions && sIn.length = nPositions && marks.length = nHighways
  | .lock h => highwayOk h
  | .syncLost h => highwayOk h
  | .syncBack h => highwayOk h
  | .blockBoundary => true
  | .convergence c => contextOk c
  | .expiry c => contextOk c
  | .cut c => contextOk c
  | .recovery c => contextOk c
  | .level c _ => contextOk c
  | .noiseFloorRise c => contextOk c
  | .stampAdvance => true
  | .windowEnd c => contextOk c
  | .toneEntry c => contextOk c
  | .release c => contextOk c
  | .searchCompletion u => unitOk u
  | .searchFailure u => unitOk u
  | .read _ bits => bitsOk bits
  | .commandMessage bytes bits => bytes.head? != some 0x80#8 && bitsOk bits
  | .bind _ _ _ _ => true
  | .retire _ _ => true
  | .engage _ _ => true
  | .hold _ _ => true
  | .resume _ _ => true
  | .restore _ _ => true
  | .search _ _ => true
  | .query _ _ => true
  | .amendSpan _ _ _ => true
  | .amendWindows _ _ _ _ _ _ => true
  | .amendProfile _ _ _ => true
  | .readTaps _ _ _ _ => true
  | .writeTaps _ _ _ _ coeffs => coeffs.length = segTaps
  | .readPool => true
  | .setProfile _ _ => true
  | .readProfile _ => true
  | .configure _ _ _ _ _ => true
  | .readConfig => true
  | .resetHighway _ => true
  | .resetStamp => true
  | .fetchNotice => true

end Sys2Proof
end

