-- ==== Sys2Proof/Decode.lean ====
section
/-! DEFINITION. The control link's message decoder and its encoder (R176, R190). The rows of spec/opcode_table.json give no bits,
so `decodeTableWord` spells no step; what the part decodes are the bytes of a command message. Decoding is total: a message is a
command or is refused by name. -/

namespace Sys2Proof

/-! ### Bytes of the fields (R190: most significant byte first) -/

/-- The bytes of a 16-bit field. -/
def be16 (w : BitVec 16) : List Byte := [w.extractLsb' 8 8, w.extractLsb' 0 8]

/-- The bytes of a 32-bit field. -/
def be32 (w : BitVec 32) : List Byte :=
  [w.extractLsb' 24 8, w.extractLsb' 16 8, w.extractLsb' 8 8, w.extractLsb' 0 8]

/-- The 16-bit field of two bytes. -/
def join16 (hi lo : Byte) : BitVec 16 := hi ++ lo

/-- The 32-bit field of four bytes. -/
def join32 (a b c d : Byte) : BitVec 32 := a ++ b ++ c ++ d

/-- The 16-bit fields of a run of bytes. -/
def words16 : List Byte → List Coeff
  | hi :: lo :: t => join16 hi lo :: words16 t
  | [_] => []
  | [] => []

/-! ### The check byte -/

/-- The sum of the bytes, modulo 256. -/
def byteSum : List Byte → Byte
  | [] => 0
  | b :: t => b + byteSum t

/-- 255 minus the sum of all preceding bytes of the message, modulo 256 (R176). -/
def checkByte (l : List Byte) : Byte := 255#8 - byteSum l

/-! ### Commands and their bodies -/

/-- The refusals of the link's own checks (R176). -/
inductive LinkError where
  | check
  | framing
  | length
  | unknown
  deriving DecidableEq, Repr

/-- The level fields from byte `i` of a SET PROFILE body on. -/
def parseLevel (body : List Byte) (i : Nat) : LevelMsg :=
  let w := fun j => join16 (body.getD (i + j) 0) (body.getD (i + j + 1) 0)
  { target := w 0, gmin := w 2, gmax := w 4, g0 := w 6 }

/-- The fields of a 48-byte SET PROFILE body (R190). -/
def parseProfile (body : List Byte) : ProfileMsg :=
  let b := fun i => body.getD i 0
  { selHw := (b 1).extractLsb' 0 4, hwMask := (b 1).extractLsb' 4 4
    selSlot := b 2, slotMask := b 3
    matchEnable := (b 4).getLsbD 0, twoWindows := (b 4).getLsbD 1
    searchAtBind := (b 4).getLsbD 2, toneEnable := (b 4).getLsbD 3
    span := b 5, b0 := b 6, w0 := b 7, w1 := b 8, minSeg := b 9
    muAcq := b 10, muTrack := b 11
    delta := join32 (b 12) (b 13) (b 14) (b 15)
    tFar := join16 (b 16) (b 17), tNear := join16 (b 18) (b 19)
    nlp := (b 20).extractLsb' 0 2, rxMode := (b 20).extractLsb' 2 2
    txMode := (b 20).extractLsb' 4 2, recovery := (b 20).extractLsb' 6 2
    rx := parseLevel body 21, tx := parseLevel body 29
    wMin := join32 (b 37) (b 38) (b 39) (b 40)
    wRel := join32 (b 41) (b 42) (b 43) (b 44)
    routing := (b 45 ++ b 46 ++ b 47).extractLsb' 0 18 }

/-- The bytes of one direction's level fields. -/
def levelBytes (l : LevelMsg) : List Byte := be16 l.target ++ be16 l.gmin ++ be16 l.gmax ++ be16 l.g0

/-- The 47 bytes of a SET PROFILE body after the profile number, ignored bits 0. -/
def profileBytes (f : ProfileMsg) : List Byte :=
  let route : BitVec 24 := 0#6 ++ f.routing
  [f.hwMask ++ f.selHw, f.selSlot, f.slotMask,
    0#4 ++ BitVec.ofBool f.toneEnable ++ BitVec.ofBool f.searchAtBind ++ BitVec.ofBool f.twoWindows ++ BitVec.ofBool f.matchEnable,
    f.span, f.b0, f.w0, f.w1, f.minSeg, f.muAcq, f.muTrack] ++ be32 f.delta ++ be16 f.tFar ++ be16 f.tNear ++
  [f.recovery ++ f.txMode ++ f.rxMode ++ f.nlp] ++ levelBytes f.rx ++ levelBytes f.tx ++ be32 f.wMin ++ be32 f.wRel ++
  [route.extractLsb' 16 8, route.extractLsb' 8 8, route.extractLsb' 0 8]

/-- Checks 4 and 5 of R176: the command that the code names, with the body it takes. -/
def parseBody (code : Byte) (body : List Byte) : Except LinkError Instr :=
  match code.toNat with
  | 0x01 => match body with | [h, s, p, f] => .ok (.bind h s p f) | _ => .error .length
  | 0x02 => match body with | [h, s] => .ok (.retire h s) | _ => .error .length
  | 0x03 => match body with | [h, s] => .ok (.engage h s) | _ => .error .length
  | 0x04 => match body with | [h, s] => .ok (.hold h s) | _ => .error .length
  | 0x05 => match body with | [h, s] => .ok (.resume h s) | _ => .error .length
  | 0x06 => match body with | [h, s] => .ok (.restore h s) | _ => .error .length
  | 0x07 => match body with | [h, s] => .ok (.search h s) | _ => .error .length
  | 0x08 => match body with | [h, s] => .ok (.query h s) | _ => .error .length
  | 0x10 => match body with | [h, s, n] => .ok (.amendSpan h s n) | _ => .error .length
  | 0x11 => match body with | [h, s, b1, l1, b2, l2] => .ok (.amendWindows h s b1 l1 b2 l2) | _ => .error .length
  | 0x12 => match body with | [h, s, p] => .ok (.amendProfile h s p) | _ => .error .length
  | 0x13 => match body with | [h, s, w, i] => .ok (.readTaps h s w i) | _ => .error .length
  | 0x14 => match body with
    | h :: s :: w :: i :: rest => if rest.length = 32 then .ok (.writeTaps h s w i (words16 rest)) else .error .length
    | _ => .error .length
  | 0x15 => match body with | [] => .ok .readPool | _ => .error .length
  | 0x20 => if body.length = 48 then .ok (.setProfile (body.getD 0 0) (parseProfile body)) else .error .length
  | 0x21 => match body with | [p] => .ok (.readProfile p) | _ => .error .length
  | 0x30 => match body with | [e, r, m, d, u] => .ok (.configure e r m d u) | _ => .error .length
  | 0x31 => match body with | [] => .ok .readConfig | _ => .error .length
  | 0x32 => match body with | [h] => .ok (.resetHighway h) | _ => .error .length
  | 0x33 => match body with | [] => .ok .resetStamp | _ => .error .length
  | 0x34 => match body with | [] => .ok .fetchNotice | _ => .error .length
  | _ => .error .unknown

/-- The checks of R176, in order, on the whole bytes of a transaction that is a command message. -/
def decodeMessage (bytes : List Byte) : Except LinkError Instr :=
  match bytes with
  | [] => .error .framing
  | [_] => .error .framing
  | code :: n :: tail =>
    if 48 < n.toNat then .error .length
    else if tail.length < n.toNat + 1 then .error .framing
    else if tail.getD n.toNat 0 ≠ checkByte (code :: n :: tail.take n.toNat) then .error .check
    else parseBody code (tail.take n.toNat)

/-- The code and body of a link command (R190); none for a step that is no command of the link. -/
def commandBody : Instr → Option (Byte × List Byte)
  | .powerOn => none
  | .frame _ _ _ => none
  | .lock _ => none
  | .syncLost _ => none
  | .syncBack _ => none
  | .blockBoundary => none
  | .convergence _ => none
  | .expiry _ => none
  | .cut _ => none
  | .recovery _ => none
  | .level _ _ => none
  | .noiseFloorRise _ => none
  | .stampAdvance => none
  | .windowEnd _ => none
  | .toneEntry _ => none
  | .release _ => none
  | .searchCompletion _ => none
  | .searchFailure _ => none
  | .read _ _ => none
  | .commandMessage _ _ => none
  | .bind h s p f => some (0x01#8, [h, s, p, f])
  | .retire h s => some (0x02#8, [h, s])
  | .engage h s => some (0x03#8, [h, s])
  | .hold h s => some (0x04#8, [h, s])
  | .resume h s => some (0x05#8, [h, s])
  | .restore h s => some (0x06#8, [h, s])
  | .search h s => some (0x07#8, [h, s])
  | .query h s => some (0x08#8, [h, s])
  | .amendSpan h s n => some (0x10#8, [h, s, n])
  | .amendWindows h s b1 l1 b2 l2 => some (0x11#8, [h, s, b1, l1, b2, l2])
  | .amendProfile h s p => some (0x12#8, [h, s, p])
  | .readTaps h s w i => some (0x13#8, [h, s, w, i])
  | .writeTaps h s w i cs => some (0x14#8, h :: s :: w :: i :: cs.flatMap be16)
  | .readPool => some (0x15#8, [])
  | .setProfile p f => some (0x20#8, p :: profileBytes f)
  | .readProfile p => some (0x21#8, [p])
  | .configure e r m d u => some (0x30#8, [e, r, m, d, u])
  | .readConfig => some (0x31#8, [])
  | .resetHighway h => some (0x32#8, [h])
  | .resetStamp => some (0x33#8, [])
  | .fetchNotice => some (0x34#8, [])

/-- The command message of a link command: code, body length, body, check byte (R176). -/
def encodeMessage (i : Instr) : Option (List Byte) :=
  match commandBody i with
  | none => none
  | some (code, body) =>
    let m := code :: BitVec.ofNat 8 body.length :: body
    some (m ++ [checkByte m])

/-- The step that a word spells by the table's bits: the table gives no row any bits. -/
def decodeTableWord (_nbits _w : Nat) : Option Instr := none

end Sys2Proof
end

