-- ==== Sys2Proof/Machine/State.lean ====
section
/-! DEFINITION. The state of the part, as plain data, and its value after power-on. Tables that the spec numbers (contexts, units,
profiles, highways, segments) are lists of (number, entry) with rising numbers; an entry that is absent is a VACANT context, an
IDLE unit, an OFF highway, a segment of zeros. -/

namespace Sys2Proof.Machine

/-! ### Outcomes -/

/-- Why the machine stops. The spec gives the part no fault that stops it. -/
inductive Fault where
  /-- Raised by no meaning; safe. -/
  | unreachable
  deriving DecidableEq, Repr

/-- Why a step has no meaning. -/
inductive Refusal where
  /-- Raised by `exec`'s arm of a row that has no meaning yet (none has been left so); safe. -/
  | notModelled (mnemonic : String)
  deriving DecidableEq, Repr

/-! ### Modes and small states -/

/-- The main state of a bound record (R14); VACANT is the absence of a record. -/
inductive MainState where
  | observe | acquire | track | held | cut
  deriving DecidableEq, Repr

/-- The sync state of an enabled highway (R53); OFF is the absence of an entry. -/
inductive SyncState where
  | seeking | locked | lost
  deriving DecidableEq, Repr

/-- A record's talk state (R100). -/
inductive GateState where
  | idle | far | near | double
  deriving DecidableEq, Repr

/-- A record's disabling-tone sub-state (R148 to R151). -/
inductive ToneSub where
  | none | nlpOff | bypass
  deriving DecidableEq, Repr

/-- A record's divergence band (R129). -/
inductive Band where
  | sound | warned | suspect
  deriving DecidableEq, Repr

/-- A record's search link (R13, R112). -/
inductive SearchLink where
  | none | queued | searching (u : Nat)
  deriving DecidableEq, Repr

/-- The non-linear processor's mode (R103). -/
inductive NlpMode where
  | off | clip | noise
  deriving DecidableEq, Repr

/-- The mode of a direction's gain (R156). -/
inductive LevelMode where
  | fixed | auto
  deriving DecidableEq, Repr

/-- What follows a divergence (R132, R136). -/
inductive RecoveryMode where
  | auto | holdAtCut | holdAfter | stay
  deriving DecidableEq, Repr

/-- The scheduler's order (R90, R91). -/
inductive SchedMode where
  | urgency | index
  deriving DecidableEq, Repr

/-- How an alert line reports (R186, R187). -/
inductive LineMode where
  | latched | pulsed
  deriving DecidableEq, Repr

/-- What becomes of a second detail record (R181). -/
inductive DetailPolicy where
  | overwrite | keep
  deriving DecidableEq, Repr

/-- The lines a notice kind is sent to (R185). -/
inductive Route where
  | none | a | b | both
  deriving DecidableEq, Repr

/-- The notice kinds of a context (R179). -/
inductive Kind where
  | converged | slow | searchDone | searchFailed | warned | cut | restored | tone | level
  deriving DecidableEq, Repr

/-- The notice kinds of a highway (R54). -/
inductive HwKind where
  | syncLost | syncBack
  deriving DecidableEq, Repr

/-- The status of a response (R178, codes in R190). -/
inductive Status where
  | ok | none | check | framing | length | unknown | range | bound | unbound | noRoom | noProfile | state | highwayOff | inUse
  | overlap
  deriving DecidableEq, Repr

/-! ### The circuit record, by the groups of R6 to R13 -/

/-- A window of R7: positions `base` to `limit`, each backed by a segment of the pool. -/
structure Window where
  base : Nat
  limit : Nat
  segs : List Nat
  deriving DecidableEq, Repr

/-- R6: key, profile index, bind stamp, span. -/
structure Identity where
  hw : Nat
  slot : Nat
  profile : Nat
  bindStamp : BitVec 16
  span : Nat
  deriving DecidableEq, Repr

/-- R7 and R45: the windows and the shortened flag. -/
structure Windows where
  first : Window
  second : Option Window
  shortened : Bool
  deriving DecidableEq, Repr

/-- R8: the convergence group. -/
structure ConvGroup where
  run : Nat
  deadline : Nat
  expiry : Nat
  convergedOnce : Bool
  observeConverged : Bool
  echoFree : Bool
  deriving DecidableEq, Repr

/-- R9: reference power and block energies. -/
structure Measures where
  px : Nat
  es : Nat
  ee : Nat
  ef : Nat
  deriving DecidableEq, Repr

/-- R10: the gate group. -/
structure GateGroup where
  state : GateState
  far : Nat
  near : Nat
  deriving DecidableEq, Repr

/-- R10: the residual group. -/
structure ResidGroup where
  nf : Nat
  rise : Nat
  noise : BitVec 16
  deriving DecidableEq, Repr

/-- R11: one direction of the tone group. `acc1` and `acc2` are the last two resonator values (R144). -/
structure ToneDir where
  acc1 : Int
  acc2 : Int
  energy : Nat
  prev : Option (Int × Int)
  run : Nat
  gap : Nat
  deriving DecidableEq, Repr

/-- R11: the tone group, with the worked blocks of the window in progress (R143). -/
structure ToneGroup where
  sub : ToneSub
  rx : ToneDir
  tx : ToneDir
  reversal : Bool
  release : Nat
  blocks : Nat
  deriving DecidableEq, Repr

/-- R129: the divergence group. -/
structure DivGroup where
  count : Nat
  band : Band
  quiet : Nat
  deriving DecidableEq, Repr

/-- R155: the level group of one direction. -/
structure LevelDir where
  gain : Nat
  avg : Nat
  limit : Nat
  deriving DecidableEq, Repr

/-- R155: the level group. -/
structure LevelGroup where
  rx : LevelDir
  tx : LevelDir
  deriving DecidableEq, Repr

/-- A detail record (R181). -/
inductive Detail where
  | main (old new : MainState) (stamp : BitVec 16)
  | tone (old new : ToneSub) (stamp : BitVec 16)
  deriving DecidableEq, Repr

/-- R13 and R179: the record's notices. `kinds` has the bits of R190's kind set; `routing` is the routing of those kinds at the
start of the current frame, two bits a kind (R187). -/
structure NoticeGroup where
  kinds : BitVec 9
  detail : Option Detail
  lost : Bool
  routing : BitVec 18
  deriving DecidableEq, Repr

/-- The block in progress: whether the record's first block has begun (R5), whether every frame of it was worked (R55), the windows
(base, coefficients) at its start (R31), and its S_in samples, residuals and reference samples, oldest first (R66, R71). -/
structure BlockData where
  started : Bool
  worked : Bool
  model : List (Nat × List Coeff)
  sIn : List Sample
  resid : List Sample
  ref : List Sample
  deriving DecidableEq, Repr

/-- A bound circuit record (section 1.2 of 01_circuit_records.md). -/
structure Record where
  id : Identity
  wins : Windows
  main : MainState
  conv : ConvGroup
  meas : Measures
  gate : GateGroup
  resid : ResidGroup
  tone : ToneGroup
  div : DivGroup
  lev : LevelGroup
  link : SearchLink
  skip : Nat
  notes : NoticeGroup
  blk : BlockData
  deriving DecidableEq, Repr

/-! ### The other tables -/

/-- The level fields of a profile for one direction (R167). -/
structure LevelFields where
  mode : LevelMode
  target : Nat
  gmin : Nat
  gmax : Nat
  g0 : Nat
  deriving DecidableEq, Repr

/-- The bind-time fields of a profile (R166). -/
structure BindFields where
  span : Nat
  b0 : Nat
  w0 : Nat
  w1 : Nat
  twoWindows : Bool
  minSeg : Nat
  searchAtBind : Bool
  deriving DecidableEq, Repr

/-- A profile: selection, bind-time and live fields, and the in-use count (R165 to R167). -/
structure Profile where
  selHw : Byte
  hwMask : Byte
  selSlot : Byte
  slotMask : Byte
  matchEnable : Bool
  bindTime : BindFields
  muAcq : Nat
  muTrack : Nat
  delta : Nat
  tFar : Nat
  tNear : Nat
  nlp : NlpMode
  rx : LevelFields
  tx : LevelFields
  toneEnable : Bool
  wMin : Nat
  wRel : Nat
  recovery : RecoveryMode
  routing : BitVec 18
  inUse : Nat
  deriving DecidableEq, Repr

/-- A SEARCHING unit (R112), whether its first block has begun (R114), and the block's shadow residuals, oldest first (R116). -/
structure SearchUnit where
  ctx : Nat
  span : Nat
  shadow : List Coeff
  qual : Nat
  blocks : Nat
  begun : Bool
  resid : List Sample
  deriving DecidableEq, Repr

/-- An enabled highway: sync state and counts (R52, R53), and the observation of the current frame, not yet made (R49; log 6). -/
structure Highway where
  sync : SyncState
  good : Nat
  bad : Nat
  obs : Option Bool
  deriving DecidableEq, Repr

/-- A slot position: its output pins, the samples in flight (`1` entered in the last frame, `2` in the one before), and its
reference history, newest first, without trailing zeros (R48, R50). -/
structure Slot where
  rOut : Sample
  sOut : Sample
  r1 : Sample
  r2 : Sample
  s1 : Sample
  s2 : Sample
  hist : List Sample
  deriving DecidableEq, Repr

/-- The settings held with the Notice Store (R182). -/
structure Settings where
  routeLost : Route
  routeBack : Route
  modeA : LineMode
  modeB : LineMode
  merge : Bool
  policy : DetailPolicy
  deriving DecidableEq, Repr

/-- An alert line: asserted in the current frame, and pulses owed (R184, R187). -/
structure AlertLine where
  asserted : Bool
  owed : Nat
  deriving DecidableEq, Repr

/-- A response (R177, R178). -/
structure Response where
  status : Status
  overrun : Bool
  clamped : Bool
  shortened : Bool
  already : Bool
  body : List Byte
  deriving DecidableEq, Repr

/-- An event that the last block boundary has made due (log 4). -/
inductive DueEvent where
  | convergence (c : Nat)
  | expiry (c : Nat)
  | cut (c : Nat)
  | recovery (c : Nat)
  | level (c : Nat) (d : Dir)
  | noiseFloorRise (c : Nat)
  | stampAdvance
  | windowEnd (c : Nat)
  | toneEntry (c : Nat)
  | release (c : Nat)
  deriving DecidableEq, Repr

/-- The state of the part. -/
structure State where
  /-- Steps waiting to be taken, first in, first out. -/
  pending : List Instr
  /-- Frames of the current block already taken (R47). -/
  phase : Nat
  /-- Block boundaries counted (R47). -/
  blockCounter : BitVec 32
  /-- Enabled highways (R53). -/
  sync : List (Nat × Highway)
  /-- Pending highway notice kinds, SYNC_LOST bit 0, SYNC_BACK bit 1; absent is empty (R179). -/
  hwKinds : List (Nat × BitVec 2)
  /-- The stamp counter (R61). -/
  stamp : BitVec 16
  /-- The prescale count (R61). -/
  prescale : Nat
  /-- The stamp unit, in blocks (R61). -/
  stampUnit : Nat
  /-- The slot positions 64 * highway + slot (R46). -/
  slots : List Slot
  /-- The bound contexts (R2). -/
  ctxs : List (Nat × Record)
  /-- The circuit index: slot position to context number (R3). -/
  index : List (Nat × Nat)
  /-- The coefficients of the segments, 16 each (R27). -/
  pool : List (Nat × List Coeff)
  /-- The free list, head first (R27). -/
  free : List Nat
  /-- The scheduling mode (R94). -/
  sched : SchedMode
  /-- The rotation pointer (R91). -/
  pointer : Nat
  /-- The SEARCHING units (R112). -/
  units : List (Nat × SearchUnit)
  /-- The search queue, head first (R112). -/
  queue : List Nat
  /-- The sixteen profiles (R165). -/
  profiles : List (Nat × Profile)
  /-- The response buffer (R177). -/
  resp : Option Response
  /-- The bytes the part sent in the last transaction (R175). -/
  linkOut : List Byte
  /-- Part-wide settings (R182). -/
  settings : Settings
  /-- The part-wide settings at the start of the current frame (R185, R187). -/
  inForce : Settings
  /-- ALERT_A (R184). -/
  lineA : AlertLine
  /-- ALERT_B (R184). -/
  lineB : AlertLine
  /-- Events of the last block boundary that are due (log 4). -/
  due : List DueEvent
  deriving DecidableEq, Repr

/-! ### Power-on values -/

/-- The notice routing of R168: CUT to both lines; CONVERGED and SEARCH_DONE to none; the others to A. -/
def routingPowerOn : BitVec 18 := 0b010101110101000100#18

/-- A profile after power-on, with match-enable as given (R168). -/
def profilePowerOn (matchEnable : Bool) : Profile :=
  { selHw := 0, hwMask := 0, selSlot := 0, slotMask := 0, matchEnable := matchEnable
    bindTime := { span := 32, b0 := 0, w0 := 8, w1 := 4, twoWindows := true, minSeg := 4, searchAtBind := true }
    muAcq := 128, muTrack := 32, delta := 65536, tFar := 128, tNear := 64, nlp := .noise
    rx := { mode := .auto, target := 2000, gmin := 1024, gmax := 16384, g0 := 4096 }
    tx := { mode := .fixed, target := 2000, gmin := 1024, gmax := 16384, g0 := 4096 }
    toneEnable := true, wMin := 800000, wRel := 72000, recovery := .auto, routing := routingPowerOn, inUse := 0 }

/-- The part-wide settings after power-on (R182). -/
def settingsPowerOn : Settings :=
  { routeLost := .a, routeBack := .a, modeA := .latched, modeB := .latched, merge := false, policy := .overwrite }

/-- A slot position after power-on: silent history (R51); nothing in flight and pins at 0 (DESIGN CHOICE, unsafe: log 1). -/
def slotPowerOn : Slot := { rOut := 0, sOut := 0, r1 := 0, r2 := 0, s1 := 0, s2 := 0, hist := [] }

/-- The part after power-on (R47, R51, R53, R61, R86, R112, R165, R168, R177, R179, R182, R184, R187). -/
def State.reset : State :=
  { pending := [], phase := 0, blockCounter := 0, sync := [], hwKinds := [], stamp := 0, prescale := 0, stampUnit := 1
    slots := List.replicate nPositions slotPowerOn, ctxs := [], index := [], pool := [], free := List.range nSegments
    sched := .urgency, pointer := 0, units := [], queue := []
    profiles := (List.range nProfiles).map fun p => (p, profilePowerOn (p == 0))
    resp := none, linkOut := [], settings := settingsPowerOn, inForce := settingsPowerOn
    lineA := { asserted := false, owed := 0 }, lineB := { asserted := false, owed := 0 }, due := [] }

end Sys2Proof.Machine
end

