-- ==== Sys2Proof/Machine/Ops.lean ====
section
/-! DEFINITION. The shared operations: the arithmetic of R1, tables of numbered entries, access to the tables of State, the segment
pool's memory and the reference history. -/

namespace Sys2Proof.Machine

/-! ### Arithmetic (R1). `/` of an integer by a positive number is the floor of the quotient. -/

/-- Clamp into -32768..32767 (R1). -/
def sat16 (v : Int) : Sample := BitVec.ofInt 16 (max (-32768) (min 32767 v))

/-- Arithmetic right shift: the floor of `v / 2 ^ n` (R1). -/
def shiftFloor (v : Int) (n : Nat) : Int := v / 2 ^ n

/-- The magnitude of a sample; that of -32768 is 32768 (R1). -/
def mag (x : Sample) : Nat := x.toInt.natAbs

/-- The square of a sample. -/
def sq (x : Sample) : Nat := mag x * mag x

/-- `lo` if `v` is below it, `hi` if `v` is above it, otherwise `v` (R1). -/
def clampNat (v lo hi : Nat) : Nat := if v < lo then lo else if hi < v then hi else v

/-- Round half away from zero: magnitude floor((2|N| + D) / 2D), sign of N (R76). -/
def roundAway (n : Int) (d : Nat) : Int :=
  let m : Int := ((2 * n.natAbs + d) / (2 * d) : Nat)
  if n < 0 then -m else m

/-- One step of a first-order average of weight 1/64, with the floor (R68, R159). -/
def average64 (old v : Nat) : Nat := ((old : Int) + ((v : Int) - old) / 64).toNat

/-- The sum of products of coefficients and samples, as far as both go. -/
def dot : List (BitVec 16) → List Sample → Int
  | c :: cs, x :: xs => c.toInt * x.toInt + dot cs xs
  | _, _ => 0

/-- Q15 to sample: round half up by 2^15, then saturate (R64). -/
def scale15 (a : Int) : Sample := sat16 (shiftFloor (a + 16384) 15)

/-- A gain code applied to a sample: round half up by 2^12, then saturate (R157, R158). -/
def applyGain (x : Sample) (g : Nat) : Sample := sat16 (shiftFloor (x.toInt * g + 2048) 12)

/-- The sum of the squares of samples. -/
def energy (l : List Sample) : Nat := (l.map sq).sum

/-- The largest magnitude among samples; 0 of none. -/
def peak (l : List Sample) : Nat := l.foldl (fun m x => max m (mag x)) 0

/-! ### Tables of numbered entries -/

/-- The entry of number `k`. -/
def tget {α : Type} (k : Nat) : List (Nat × α) → Option α
  | [] => none
  | (j, v) :: t => if j = k then some v else tget k t

/-- The table with entry `v` at number `k`, numbers rising. -/
def tset {α : Type} (k : Nat) (v : α) : List (Nat × α) → List (Nat × α)
  | [] => [(k, v)]
  | (j, w) :: t => if k < j then (k, v) :: (j, w) :: t else if j = k then (k, v) :: t else (j, w) :: tset k v t

/-- The table without number `k`. -/
def tdel {α : Type} (k : Nat) (m : List (Nat × α)) : List (Nat × α) := m.filter fun e => e.1 ≠ k

/-- The numbers of a table rise strictly. -/
def rising {α : Type} : List (Nat × α) → Bool
  | [] => true
  | [_] => true
  | (j, _) :: (k, v) :: t => j < k && rising ((k, v) :: t)

/-! ### Records -/

/-- The record of context `c`; none when it is VACANT (R2). -/
def State.rec? (s : State) (c : Nat) : Option Record := tget c s.ctxs

/-- `s` with context `c` holding `r`. -/
def State.setRec (s : State) (c : Nat) (r : Record) : State := { s with ctxs := tset c r s.ctxs }

/-- `s` with the record of context `c` changed by `f`; a VACANT context is left alone. -/
def State.modRec (s : State) (c : Nat) (f : Record → Record) : State :=
  match s.rec? c with
  | none => s
  | some r => s.setRec c (f r)

/-- The number of a circuit position (R3). -/
def position (hw slot : Nat) : Nat := nSlots * hw + slot

/-- Profile `p` (R165). -/
def State.profile (s : State) (p : Nat) : Profile := (tget p s.profiles).getD (profilePowerOn false)

/-- `s` with profile `p` holding `f`. -/
def State.setProfile (s : State) (p : Nat) (f : Profile) : State := { s with profiles := tset p f s.profiles }

/-- The profile that a record references (R6). -/
def State.profileOf (s : State) (r : Record) : Profile := s.profile r.id.profile

/-- The slot position `p`. -/
def State.slotAt (s : State) (p : Nat) : Slot := s.slots.getD p slotPowerOn

/-- The reference history of a record's slot, newest first (R50). -/
def State.histOf (s : State) (r : Record) : List Sample := (s.slotAt (position r.id.hw r.id.slot)).hist

/-- Highway `h` is enabled: it is not OFF (R53, R58). -/
def State.enabled (s : State) (h : Nat) : Bool := (tget h s.sync).isSome

/-- Highway `h` is LOCKED. -/
def State.locked (s : State) (h : Nat) : Bool :=
  match tget h s.sync with
  | none => false
  | some y => y.sync == .locked

/-- Contexts bound on highway `h`, ascending. -/
def State.boundOn (s : State) (h : Nat) : List Nat := (s.ctxs.filter fun e => e.2.id.hw == h).map (·.1)

/-- The lowest-numbered VACANT context (R19). -/
def State.vacant (s : State) : Option Nat := (List.range nContexts).find? fun c => (s.rec? c).isNone

/-! ### Windows and the segment pool -/

/-- The segments of a record, in the order in which they are returned (R29). -/
def Windows.segs (w : Windows) : List Nat :=
  w.first.segs ++ (match w.second with | none => [] | some v => v.segs)

/-- The windows, first to second. -/
def Windows.list (w : Windows) : List Window := w.first :: w.second.toList

/-- The record's segment count (R30). -/
def Record.segCount (r : Record) : Nat := r.wins.segs.length

/-- The record's tap count, L and the scheduler's cost (R30, R74, R88). -/
def Record.tapCount (r : Record) : Nat := segTaps * r.segCount

/-- Two placements are equal: same bases and limits, both with or both without a second window (R37, R124). -/
def Windows.sameAs (v w : Windows) : Bool :=
  v.list.map (fun x => (x.base, x.limit)) == w.list.map (fun x => (x.base, x.limit))

/-- Sixteen zero coefficients. -/
def zeroSeg : List Coeff := List.replicate segTaps 0

/-- The coefficients of segment `g`. -/
def segRead (pool : List (Nat × List Coeff)) (g : Nat) : List Coeff := (tget g pool).getD zeroSeg

/-- The pool with segment `g` holding `v`; a segment of zeros is not listed. -/
def segWrite (pool : List (Nat × List Coeff)) (g : Nat) (v : List Coeff) : List (Nat × List Coeff) :=
  if v = zeroSeg then tdel g pool else tset g v pool

/-- The pool's canonical form: rising segment numbers, sixteen coefficients each, no segment of zeros. -/
def poolWf (pool : List (Nat × List Coeff)) : Bool :=
  rising pool && pool.all fun e => e.2.length = segTaps && e.2 ≠ zeroSeg

/-- Segment number `i` of a run of coefficients, sixteen of them, filled up with zeros. -/
def segSlice (cs : List Coeff) (i : Nat) : List Coeff :=
  let l := cs.drop (segTaps * i)
  (List.range segTaps).map fun j => l.getD j 0

/-- The pool with the segments `gs` holding, one after another, the run of coefficients `cs`. -/
def writeRun : List (Nat × List Coeff) → List Nat → List Coeff → List (Nat × List Coeff)
  | pool, [], _ => pool
  | pool, g :: gs, cs => writeRun (segWrite pool g (segSlice cs 0)) gs (cs.drop segTaps)

/-- The coefficients of a window, ascending taps (R7). -/
def windowCoeffs (pool : List (Nat × List Coeff)) (w : Window) : List Coeff := w.segs.flatMap (segRead pool)

/-- The coefficient segment serving position `pos`: that of the window it lies in, zeros where it lies in none (R30). -/
def positionCoeffs (pool : List (Nat × List Coeff)) (w : Windows) (pos : Nat) : List Coeff :=
  match w.list.find? fun v => v.base ≤ pos && pos ≤ v.limit with
  | none => zeroSeg
  | some v => match v.segs[pos - v.base]? with
    | none => zeroSeg
    | some g => segRead pool g

/-- The coefficient of every tap 0..1023 of a record, 0 where the tap is not active (R33). -/
def allTaps (pool : List (Nat × List Coeff)) (w : Windows) : List Coeff :=
  (List.range maxSpan).flatMap (positionCoeffs pool w)

/-- Every coefficient of the windows set to 0 (R133, R139). -/
def zeroWindows (pool : List (Nat × List Coeff)) (w : Windows) : List (Nat × List Coeff) :=
  w.segs.foldl (fun p g => segWrite p g zeroSeg) pool

/-! ### Reference history -/

/-- A history without its trailing zeros: what lies past its end reads as 0. -/
def trimZeros (l : List Sample) : List Sample :=
  l.foldr (fun x t => if x = 0 && t.isEmpty then [] else x :: t) []

/-- A new reference sample enters at delay 0 and the oldest is discarded (R50). -/
def pushHist (x : Sample) (h : List Sample) : List Sample := trimZeros ((x :: h).take historyDepth)

end Sys2Proof.Machine
end

