-- ==== Sys2Proof/Machine/Flags.lean ====
section
/-! DEFINITION. The part's flags: notice kinds and their routing, detail records, alert lines, response status and flags. -/

namespace Sys2Proof.Machine

/-! ### Codes (R190) -/

/-- The bit of a context kind in a kind set. -/
def Kind.bit : Kind → Nat
  | .converged => 0
  | .slow => 1
  | .searchDone => 2
  | .searchFailed => 3
  | .warned => 4
  | .cut => 5
  | .restored => 6
  | .tone => 7
  | .level => 8

/-- The bit of a highway kind. -/
def HwKind.bit : HwKind → Nat
  | .syncLost => 0
  | .syncBack => 1

/-- All context kinds, by bit. -/
def allKinds : List Kind := [.converged, .slow, .searchDone, .searchFailed, .warned, .cut, .restored, .tone, .level]

/-- The routing of one kind from its two bits. -/
def Route.ofBits (w : BitVec 2) : Route :=
  match w.toNat with
  | 0 => .none
  | 1 => .a
  | 2 => .b
  | _ => .both

/-- The two bits of a routing. -/
def Route.bits : Route → BitVec 2
  | .none => 0
  | .a => 1
  | .b => 2
  | .both => 3

/-- The code of a main state. -/
def MainState.code : MainState → Byte
  | .observe => 1
  | .acquire => 2
  | .track => 3
  | .held => 4
  | .cut => 5

/-- The code of a tone sub-state. -/
def ToneSub.code : ToneSub → Byte
  | .none => 0
  | .nlpOff => 1
  | .bypass => 2

/-- The code of a gate state. -/
def GateState.code : GateState → Byte
  | .idle => 0
  | .far => 1
  | .near => 2
  | .double => 3

/-- The code of a band. -/
def Band.code : Band → Byte
  | .sound => 0
  | .warned => 1
  | .suspect => 2

/-- The code of a search link. -/
def SearchLink.code : SearchLink → Byte
  | .none => 0x00
  | .queued => 0x01
  | .searching u => BitVec.ofNat 8 (0x10 + u)

/-- The code of a response status. -/
def Status.code : Status → Byte
  | .ok => 0x00
  | .none => 0x01
  | .check => 0x10
  | .framing => 0x11
  | .length => 0x12
  | .unknown => 0x13
  | .range => 0x20
  | .bound => 0x21
  | .unbound => 0x22
  | .noRoom => 0x23
  | .noProfile => 0x24
  | .state => 0x25
  | .highwayOff => 0x26
  | .inUse => 0x27
  | .overlap => 0x28

/-! ### Routing and pulses -/

/-- The routing of a context kind in a profile's routing field. -/
def routeOf (routing : BitVec 18) (k : Kind) : Route := Route.ofBits (routing.extractLsb' (2 * k.bit) 2)

/-- ALERT_A is in the effective routing: under merge, B is replaced by A (R185). -/
def routesToA (merge : Bool) (r : Route) : Bool :=
  match r with
  | .none => false
  | .a => true
  | .b => merge
  | .both => true

/-- ALERT_B is in the effective routing (R185). -/
def routesToB (merge : Bool) (r : Route) : Bool :=
  match r with
  | .none => false
  | .a => false
  | .b => !merge
  | .both => !merge

/-- One more pulse owed on a PULSED line that the kind is routed to, saturating at 255 (R187). -/
def oweLine (mode : LineMode) (hit : Bool) (l : AlertLine) : AlertLine :=
  match mode with
  | .latched => l
  | .pulsed => if hit then { l with owed := min 255 (l.owed + 1) } else l

/-- The pulses that a newly set kind adds, by the modes, merge and routing in force at the start of the frame (R187). -/
def State.owe (s : State) (r : Route) : State :=
  { s with lineA := oweLine s.inForce.modeA (routesToA s.inForce.merge r) s.lineA
           lineB := oweLine s.inForce.modeB (routesToB s.inForce.merge r) s.lineB }

/-! ### Raising notices -/

/-- The kind is in the set. -/
def hasKind (kinds : BitVec 9) (k : Kind) : Bool := kinds.getLsbD k.bit

/-- The set with the kind in it. -/
def addKind (kinds : BitVec 9) (k : Kind) : BitVec 9 := kinds ||| (1#9 <<< k.bit)

/-- Raise a notice of context `c`: a kind already pending stays pending once; a newly set kind may owe pulses (R180, R187). -/
def raise (k : Kind) (c : Nat) (s : State) : State :=
  match s.rec? c with
  | none => s
  | some r =>
    if hasKind r.notes.kinds k then s
    else
      (s.setRec c { r with notes := { r.notes with kinds := addKind r.notes.kinds k } }).owe (routeOf r.notes.routing k)

/-- The pending kinds of highway `h`. -/
def State.hwPending (s : State) (h : Nat) : BitVec 2 := (tget h s.hwKinds).getD 0

/-- Raise a notice of highway `h` (R54, R180). -/
def raiseHw (k : HwKind) (h : Nat) (s : State) : State :=
  if (s.hwPending h).getLsbD k.bit then s
  else
    let s1 := { s with hwKinds := tset h (s.hwPending h ||| (1#2 <<< k.bit)) s.hwKinds }
    s1.owe (match k with | .syncLost => s.inForce.routeLost | .syncBack => s.inForce.routeBack)

/-- Clear the pending kinds of highway `h`. -/
def clearHw (h : Nat) (s : State) : State := { s with hwKinds := tdel h s.hwKinds }

/-! ### Detail records -/

/-- The notices of a record after a detail record is written, by the detail policy in force (R181). -/
def detailInto (policy : DetailPolicy) (d : Detail) (n : NoticeGroup) : NoticeGroup :=
  match n.detail with
  | none => { n with detail := some d }
  | some _ =>
    match policy with
    | .overwrite => { n with detail := some d, lost := true }
    | .keep => { n with lost := true }

/-- Write a detail record of context `c` (R181). -/
def writeDetail (c : Nat) (d : Detail) (s : State) : State :=
  s.modRec c fun r => { r with notes := detailInto s.settings.policy d r.notes }

/-- A context is pending when it holds a kind, a detail record or a set lost flag (R180). -/
def NoticeGroup.isPending (n : NoticeGroup) : Bool := n.kinds ≠ 0 || n.detail.isSome || n.lost

/-! ### Alert lines -/

/-- A pending kind of some context or highway has a line in its effective routing, as profiles and settings now stand (R185, R186). -/
def State.lineCalled (s : State) (hits : Bool → Route → Bool) : Bool :=
  (s.ctxs.any fun e => allKinds.any fun k =>
      hasKind e.2.notes.kinds k && hits s.settings.merge (routeOf (s.profileOf e.2).routing k)) ||
  (s.hwKinds.any fun e =>
      (e.2.getLsbD 0 && hits s.settings.merge s.settings.routeLost) ||
      (e.2.getLsbD 1 && hits s.settings.merge s.settings.routeBack))

/-- A line at the start of a frame: its mode in the last frame and in this one, whether it is held released in this one and its
owed count cleared, and whether a pending kind calls for it (R186, R187). A pulse is sent after a frame released. -/
def lineStart (old new : LineMode) (heldReleased clear called : Bool) (l : AlertLine) : AlertLine :=
  match new, old with
  | .latched, _ => { asserted := called && !heldReleased, owed := 0 }
  | .pulsed, .latched => { asserted := false, owed := 0 }
  | .pulsed, .pulsed =>
    let owed := if clear then 0 else l.owed
    if 0 < owed && !l.asserted && !heldReleased then { asserted := true, owed := owed - 1 }
    else { asserted := false, owed := owed }

/-- Both lines at the boundary that opens a frame; the settings then in force for it (R184 to R187). -/
def State.startLines (s : State) : State :=
  let turnedOn := s.settings.merge && !s.inForce.merge
  { s with
    lineA := lineStart s.inForce.modeA s.settings.modeA false false (s.lineCalled routesToA) s.lineA
    lineB := lineStart s.inForce.modeB s.settings.modeB s.settings.merge turnedOn (s.lineCalled routesToB) s.lineB
    inForce := s.settings }

/-! ### Responses -/

/-- What a command answers: status, flags, body. -/
structure Reply where
  status : Status
  clamped : Bool
  shortened : Bool
  already : Bool
  body : List Byte
  deriving DecidableEq, Repr

/-- A refusal: body length 0 and no flag (R178). -/
def refuse (st : Status) : Reply := { status := st, clamped := false, shortened := false, already := false, body := [] }

/-- An accepted command's answer without flags. -/
def answer (body : List Byte) : Reply := { status := .ok, clamped := false, shortened := false, already := false, body := body }

/-- Place a response: an unread one is discarded and the new one carries OVERRUN (R177). -/
def State.place (s : State) (r : Reply) : State :=
  { s with resp := some { status := r.status, overrun := s.resp.isSome, clamped := r.clamped, shortened := r.shortened
                          already := r.already, body := r.body } }

/-- The flags byte: OVERRUN, CLAMPED, SHORTENED, ALREADY from bit 0 (R190). -/
def Response.flags (r : Response) : Byte :=
  0#4 ++ BitVec.ofBool r.already ++ BitVec.ofBool r.shortened ++ BitVec.ofBool r.clamped ++ BitVec.ofBool r.overrun

end Sys2Proof.Machine
end

