-- ==== Sys2Proof/Machine/Search.lean ====
section
/-! DEFINITION. The search queue and units (07), the change of main state (R15), and relocation (02, R32 to R34). `begun` says
whether a search that starts within the event has its first block in the block now open: so it is within the event of a block
boundary, and not within a command (R114). -/

namespace Sys2Proof.Machine

/-! ### Queue and units -/

/-- The main states in which a record may be queued or searching (R112). -/
def MainState.searchable : MainState → Bool
  | .observe => true
  | .acquire => true
  | .track => true
  | .held => false
  | .cut => false

/-- Unit `u` starts a search for context `c` (R114). -/
def startSearch (u c : Nat) (begun : Bool) (s : State) : State :=
  match s.rec? c with
  | none => s
  | some r =>
    { s.setRec c { r with link := .searching u } with
      queue := s.queue.filter fun j => j ≠ c
      units := tset u { ctx := c, span := r.id.span, shadow := List.replicate nTaps 0, qual := 0, blocks := 0, begun := begun
                        resid := [] } s.units }

/-- Unit `u` is freed: what it held is discarded and it takes the head of the queue, or becomes IDLE (R115). -/
def freeUnit (u : Nat) (begun : Bool) (s : State) : State :=
  let s1 := { s with units := tdel u s.units }
  match s1.queue with
  | [] => s1
  | c :: _ => startSearch u c begun s1

/-- The record's search link, set. -/
def setLink (l : SearchLink) (c : Nat) (s : State) : State := s.modRec c fun r => { r with link := l }

/-- Any search of context `c` is ended without a result: a queued request is removed, a running search aborted (R126). -/
def endSearch (c : Nat) (begun : Bool) (s : State) : State :=
  match s.rec? c with
  | none => s
  | some r =>
    match r.link with
    | .none => s
    | .queued => { setLink .none c s with queue := s.queue.filter fun j => j ≠ c }
    | .searching u => freeUnit u begun (setLink .none c s)

/-- The lowest-numbered IDLE unit. -/
def State.idleUnit (s : State) : Option Nat := (List.range nUnits).find? fun u => (tget u s.units).isNone

/-- A search is requested for context `c` (R113). -/
def requestSearch (c : Nat) (begun : Bool) (s : State) : State :=
  match s.rec? c with
  | none => s
  | some r =>
    match r.main.searchable, r.link with
    | false, _ => s
    | true, .queued => s
    | true, .searching _ => s
    | true, .none =>
      match s.idleUnit with
      | some u => startSearch u c begun s
      | none => { setLink .queued c s with queue := s.queue ++ [c] }

/-! ### Change of main state (R15) -/

/-- The record's own part of a move from `r.main` to another bound state: entering ACQUIRE zeroes the run, deadline and expiry
counts, entering TRACK sets converged-once, leaving OBSERVE clears observe-converged. -/
def enterMain (new : MainState) (r : Record) : Record :=
  let conv := if r.main = .observe then { r.conv with observeConverged := false } else r.conv
  let conv := match new with
    | .acquire => { conv with run := 0, deadline := 0, expiry := 0 }
    | .track => { conv with convergedOnce := true }
    | .observe => conv
    | .held => conv
    | .cut => conv
  { r with main := new, conv := conv }

/-- Context `c` moves to main state `new`; a move to the state it is in is no change. Entering HELD or CUT ends its search. A detail
record is written (R15). -/
def changeMain (new : MainState) (c : Nat) (begun : Bool) (s : State) : State :=
  match s.rec? c with
  | none => s
  | some r =>
    if r.main = new then s
    else
      let s1 := s.setRec c (enterMain new r)
      let s2 := if new.searchable then s1 else endSearch c begun s1
      writeDetail c (.main r.main new s.stamp) s2

/-- The tone sub-state of context `c` becomes `new`: TONE is raised, a detail record written, the release count set to 0 (R152). -/
def changeTone (new : ToneSub) (c : Nat) (s : State) : State :=
  match s.rec? c with
  | none => s
  | some r =>
    let s1 := s.setRec c { r with tone := { r.tone with sub := new, release := 0 } }
    writeDetail c (.tone r.tone.sub new s.stamp) (raise .tone c s1)

/-! ### Relocation -/

/-- A desired window: base and length. -/
abbrev Place := Nat × Nat

/-- The grant of R34 from free count `f`: the first window's length, whether the second window is kept, and whether the grant is
short. A grant for AMEND WINDOWS, whose command has checked the pool, is full. -/
def grant (f : Nat) (first : Place) (second : Option Place) : Nat × Bool × Bool :=
  match second with
  | some w =>
    if first.2 + w.2 ≤ f then (first.2, true, false)
    else if first.2 ≤ f then (first.2, false, true)
    else (f, false, true)
  | none => if first.2 ≤ f then (first.2, false, false) else (f, false, true)

/-- The first window that a placement gives with its granted segments. -/
def windowAt (base : Nat) (segs : List Nat) : Window := { base := base, limit := base + segs.length - 1, segs := segs }

/-- Relocate context `c` to the desired windows, coefficients from `src`, which holds one for every tap 0..1023 (R32, R33): its own
segments go back to the tail of the free list, the grant is decided, and the new segments are taken from the head. -/
def relocate (c : Nat) (first : Place) (second : Option Place) (src : List Coeff) (s : State) : State :=
  match s.rec? c with
  | none => s
  | some r =>
    let free := s.free ++ r.wins.segs
    let (n, keep, short) := grant free.length first second
    let segs1 := free.take n
    let rest := free.drop n
    let pool1 := writeRun s.pool segs1 (src.drop (segTaps * first.1))
    match second, keep with
    | some w, true =>
      let segs2 := rest.take w.2
      { s.setRec c { r with wins := { first := windowAt first.1 segs1, second := some (windowAt w.1 segs2), shortened := short } } with
        free := rest.drop w.2, pool := writeRun pool1 segs2 (src.drop (segTaps * w.1)) }
    | _, _ =>
      { s.setRec c { r with wins := { first := windowAt first.1 segs1, second := none, shortened := short } } with
        free := rest, pool := pool1 }

/-- The state effects of a relocation that moved the windows from `old` (R37, R124). -/
def relocationEffects (c : Nat) (old : Windows) (begun : Bool) (s : State) : State :=
  match s.rec? c with
  | none => s
  | some r =>
    if r.wins.sameAs old then s
    else
      match r.main with
      | .acquire => s.setRec c { r with conv := { r.conv with run := 0 } }
      | .track => changeMain .acquire c begun s
      | .observe => s.setRec c { r with conv := { r.conv with run := 0, observeConverged := false } }
      | .held => s
      | .cut => s

/-! ### Retirement (R20) -/

/-- The in-use count of profile `p` raised by 1 (R165). -/
def useProfile (p : Nat) (s : State) : State :=
  s.setProfile p { s.profile p with inUse := (s.profile p).inUse + 1 }

/-- The in-use count of profile `p` lowered by 1 (R165). -/
def unuseProfile (p : Nat) (s : State) : State :=
  s.setProfile p { s.profile p with inUse := (s.profile p).inUse - 1 }

/-- Context `c` is retired: its search ended, its segments returned, its index entry and notices gone, its profile's in-use count
lowered, the context VACANT (R20). -/
def retire (c : Nat) (s : State) : State :=
  match s.rec? c with
  | none => s
  | some r =>
    let s1 := endSearch c false s
    unuseProfile r.id.profile
      { s1 with free := s1.free ++ r.wins.segs, index := tdel (position r.id.hw r.id.slot) s1.index, ctxs := tdel c s1.ctxs }

/-! ### Evaluation of a search (R120 to R123) -/

/-- The segment energies of a shadow filter, positions 0 to span - 1 (R120). -/
def segEnergies (shadow : List Coeff) (span : Nat) : List Nat :=
  (List.range span).map fun p => energy (segSlice shadow p)

/-- The position with the largest energy among those that qualify, the lowest of several; none where none qualifies. -/
def bestPosition (es : List Nat) (ok : Nat → Bool) : Option Nat :=
  (List.range es.length).foldl (fun best p =>
    if !ok p then best
    else match best with
      | none => some p
      | some q => if es.getD q 0 < es.getD p 0 then some p else some q) none

/-- The window placed for position `p` with length `w` in a span: base and limit (R121). -/
def placeWindow (p w span : Nat) : Nat × Nat :=
  let base := if w = 1 then p else p - 1
  let limit := base + w - 1
  if limit > span - 1 then
    let b := span - w
    (b, min (span - 1) (b + w - 1))
  else (base, limit)

/-- Two windows in order of base, merged when the gap between them is under two segments (R123). -/
def mergeWindows (x y : Nat × Nat) : (Nat × Nat) × Option (Nat × Nat) :=
  let (lo, hi) := if y.1 < x.1 then (y, x) else (x, y)
  if hi.1 ≤ lo.2 + 2 then ((lo.1, max lo.2 hi.2), none) else (lo, some hi)

/-- A window given by base and limit, as a place. -/
def placeOf (w : Nat × Nat) : Place := (w.1, w.2 + 1 - w.1)

/-- The result of a search: none is ECHO_FREE, otherwise the desired windows (R120, R122, R123). -/
def evaluate (b : BindFields) (shadow : List Coeff) (span : Nat) : Option (Place × Option Place) :=
  let es := segEnergies shadow span
  match bestPosition es fun _ => true with
  | none => none
  | some p =>
    if es.getD p 0 < 1048576 then none
    else
      let w := placeWindow p b.w0 span
      let second := if b.twoWindows then bestPosition es fun q => q + 2 ≤ w.1 || w.2 + 2 ≤ q else none
      match second with
      | none => some (placeOf w, none)
      | some q =>
        if es.getD p 0 ≤ 4 * es.getD q 0 then
          let (x, y) := mergeWindows w (placeWindow q b.w1 span)
          some (placeOf x, y.map placeOf)
        else some (placeOf w, none)

/-- The hand-off of a completed search (R120, R124). -/
def handOff (un : SearchUnit) (begun : Bool) (s : State) : State :=
  match s.rec? un.ctx with
  | none => s
  | some r =>
    match evaluate (s.profileOf r).bindTime un.shadow un.span with
    | none =>
      raise .searchDone un.ctx (s.setRec un.ctx { r with conv := { r.conv with echoFree := true } })
    | some (first, second) =>
      let s1 := relocate un.ctx first second un.shadow s
      let s2 := s1.modRec un.ctx fun q => { q with conv := { q.conv with echoFree := false } }
      raise .searchDone un.ctx (relocationEffects un.ctx r.wins begun s2)

/-- Unit `u`, holding `un`, completes: evaluation, hand-off, and the unit freed (R119). -/
def completeSearch (u : Nat) (un : SearchUnit) (begun : Bool) (s : State) : State :=
  freeUnit u begun (setLink .none un.ctx (handOff un begun s))

/-- Unit `u`, holding `un`, fails: SEARCH_FAILED is raised and the unit freed (R125). -/
def failSearch (u : Nat) (un : SearchUnit) (begun : Bool) (s : State) : State :=
  freeUnit u begun (setLink .none un.ctx (raise .searchFailed un.ctx s))

/-- A completion is due: the 64th qualifying block has ended (R119). -/
def SearchUnit.complete (un : SearchUnit) : Bool := 64 ≤ un.qual

/-- A failure is due: the 512th block has ended with fewer than 64 qualifying blocks (R125). -/
def SearchUnit.failed (un : SearchUnit) : Bool := 512 ≤ un.blocks && un.qual < 64

end Sys2Proof.Machine
end

