-- ==== Sys2Proof/Machine/Samples.lean ====
section
/-! DEFINITION. The work of one frame: the send and receive paths of a bound record (04, 06, 10), its measures, the tone resonators
(09), the shadow filters (07), the highways (03). -/

namespace Sys2Proof.Machine

/-! ### The send path (R63 to R67) -/

/-- The sum of c_k x[n - k] over the taps of the windows in force for the block (R64). -/
def modelSum (model : List (Nat × List Coeff)) (h : List Sample) : Int :=
  (model.map fun w => dot w.2 (h.drop (segTaps * w.1))).sum

/-- The echo estimate of one sample (R64). -/
def estimate (model : List (Nat × List Coeff)) (h : List Sample) : Sample := scale15 (modelSum model h)

/-- The residual e of one sample (R66). -/
def residual (r : Record) (h : List Sample) (sIn : Sample) : Sample :=
  if r.main = .cut ∨ r.tone.sub = .bypass then sIn
  else sat16 (sIn.toInt - (estimate r.blk.model h).toInt)

/-- The non-linear processor is active in a worked frame (R102). -/
def nlpActive (p : Profile) (r : Record) : Bool :=
  r.main = .track && r.tone.sub = .none && r.gate.state = .far && r.div.band ≠ .suspect && p.nlp ≠ .off

/-- The clip level (R103). -/
def clipLevel (nf : Nat) : Nat := max (2 * nf) 1

/-- A step of the noise generator (R104). -/
def noiseStep (w : BitVec 16) : BitVec 16 :=
  if w.getLsbD 0 then (w >>> 1) ^^^ 0xB400#16 else w >>> 1

/-- The comfort-noise sample of a generator state (R106). -/
def comfortNoise (w : BitVec 16) (nf : Nat) : Sample := sat16 (shiftFloor (w.toInt * nf + 16384) 15)

/-- What the non-linear processor makes of e while active: its output, and the noise generator after it (R103, R105). -/
def nlpOutput (mode : NlpMode) (g : ResidGroup) (e : Sample) : Sample × BitVec 16 :=
  if mag e ≤ clipLevel g.nf then
    match mode with
    | .noise => let w := noiseStep g.noise; (comfortNoise w g.nf, w)
    | .clip => (0, g.noise)
    | .off => (e, g.noise)
  else (e, g.noise)

/-- The pre-gain send sample u, and the noise generator after it (R67). -/
def sendSample (p : Profile) (r : Record) (sIn e : Sample) : Sample × BitVec 16 :=
  if r.tone.sub = .bypass ∨ r.main = .cut ∨ r.main = .observe then (sIn, r.resid.noise)
  else if nlpActive p r then nlpOutput p.nlp r.resid e
  else (e, r.resid.noise)

/-! ### Gains (R156) -/

/-- The applied gain of a direction: the record's gain within the profile's live limits (R156). -/
def appliedGain (f : LevelFields) (l : LevelDir) : Nat := clampNat l.gain f.gmin f.gmax

/-- A FIXED gain follows the profile's G0 (R156; DEDUCED that it does so in every frame: log 11). -/
def followFixed (f : LevelFields) (l : LevelDir) : LevelDir :=
  match f.mode with
  | .fixed => { l with gain := f.g0 }
  | .auto => l

/-! ### Tone resonator (R144) -/

/-- One sample of a direction enters the resonator and the window energy. -/
def resonate (x : Sample) (d : ToneDir) : ToneDir :=
  { d with acc1 := x.toInt + (-2571 * d.acc1) / 16384 - d.acc2, acc2 := d.acc1, energy := d.energy + sq x }

/-! ### One worked frame of a record -/

/-- A worked frame of record `r` with profile `p`, the slot's history `h` (the frame's reference sample at delay 0) and the input
samples: the record after it, the R_out sample and the S_out sample (R55, R63 to R68, R111, R144, R157 to R159). -/
def workedFrame (p : Profile) (h : List Sample) (rIn sIn : Sample) (r : Record) : Record × Sample × Sample :=
  let x := h.getD 0 0
  let e := residual r h sIn
  let (u, noise) := sendSample p r sIn e
  let r' := { r with
    meas := { r.meas with px := average64 r.meas.px (sq x) }
    resid := { r.resid with noise := noise }
    tone := { r.tone with rx := resonate rIn r.tone.rx, tx := resonate sIn r.tone.tx }
    lev := { rx := { r.lev.rx with avg := average64 r.lev.rx.avg (mag rIn) }
             tx := { r.lev.tx with avg := average64 r.lev.tx.avg (mag u) } }
    blk := { r.blk with sIn := r.blk.sIn ++ [sIn], resid := r.blk.resid ++ [e], ref := r.blk.ref ++ [x] } }
  (r', applyGain rIn (appliedGain p.rx r.lev.rx), applyGain u (appliedGain p.tx r.lev.tx))

/-- A suspended frame of a record: every per-sample state holds, and the block is suspended (R55). -/
def suspendedFrame (r : Record) : Record := { r with blk := { r.blk with worked := false } }

/-! ### The start of a frame -/

/-- What the start of a frame fixes in every bound record: the routing in force (R187), a FIXED gain (R156) and, in a block's first
frame, the windows and coefficients that govern the block (R31, R65). -/
def openRecord (s : State) (r : Record) : Record :=
  let p := s.profileOf r
  { r with
    notes := { r.notes with routing := p.routing }
    lev := { rx := followFixed p.rx r.lev.rx, tx := followFixed p.tx r.lev.tx }
    blk := if s.phase = 0 then { r.blk with model := r.wins.list.map fun w => (w.base, windowCoeffs s.pool w) } else r.blk }

/-- The outputs of a slot move on by one frame, and the sample sent on R_out enters the history (R48, R50). -/
def shiftSlot (sl : Slot) : Slot :=
  { sl with rOut := sl.r2, sOut := sl.s2, r2 := sl.r1, s2 := sl.s1, hist := pushHist sl.r2 sl.hist }

/-- A list with every entry made anew by `f` from its number, counted from `i` on, and itself. -/
def mapFrom {α β : Type} (f : Nat → α → β) : Nat → List α → List β
  | _, [] => []
  | i, a :: l => f i a :: mapFrom f (i + 1) l

/-- All slot positions, each made anew by `f`. -/
def State.mapSlots (s : State) (f : Nat → Slot → Slot) : State := { s with slots := mapFrom f 0 s.slots }

/-- All bound records, each made anew by `f`. -/
def State.mapRecs (s : State) (f : Record → Record) : State := { s with ctxs := s.ctxs.map fun e => (e.1, f e.2) }

/-! ### The samples of a frame -/

/-- The record that treats slot position `p` in this frame: bound, its first block begun (R3, R5, R48). -/
def State.treating (s : State) (p : Nat) : Option Record :=
  match tget p s.index with
  | none => none
  | some c => (s.rec? c).filter fun r => r.blk.started

/-- What the samples entering slot position `p` become: the R_out and S_out samples that leave two frames later (R48). The sample
of slot position `p` in `rIn` or `sIn` is entry `p`; a missing one reads as 0 (log 10). -/
def State.entering (s : State) (rIn sIn : List Sample) (p : Nat) : Sample × Sample :=
  let x := rIn.getD p 0
  let y := sIn.getD p 0
  if !s.enabled (p / nSlots) then (x, y)
  else if s.locked (p / nSlots) then
    match s.treating p with
    | none => (x, y)
    | some r => (workedFrame (s.profileOf r) (s.histOf r) x y r).2
  else (0, 0)

/-- A frame's per-sample work on a record: worked on a LOCKED highway, suspended otherwise, none before its first block (R5, R55). That
a LOCKED frame is worked also before the first wholly LOCKED block of a record bound on a highway not LOCKED, of which R56 says that
its values hold, is the model's choice (log 25). -/
def State.frameRecord (s : State) (rIn sIn : List Sample) (r : Record) : Record :=
  if !r.blk.started then r
  else if s.locked r.id.hw then
    let p := position r.id.hw r.id.slot
    (workedFrame (s.profileOf r) (s.histOf r) (rIn.getD p 0) (sIn.getD p 0) r).1
  else suspendedFrame r

/-- The shadow residual of one worked frame (R116). -/
def shadowResidual (un : SearchUnit) (h : List Sample) (sIn : Sample) : Sample :=
  sat16 (sIn.toInt - (scale15 (dot (un.shadow.take (segTaps * un.span)) h)).toInt)

/-- A frame's work of a search unit (R116). -/
def State.frameUnit (s : State) (sIn : List Sample) (un : SearchUnit) : SearchUnit :=
  match s.rec? un.ctx with
  | none => un
  | some r =>
    if un.begun && r.blk.started && s.locked r.id.hw then
      { un with resid := un.resid ++ [shadowResidual un (s.histOf r) (sIn.getD (position r.id.hw r.id.slot) 0)] }
    else un

/-- The samples of a frame are taken: outputs and histories move on, the entering samples are processed, and every record and
search unit does its per-sample work on the histories so moved. -/
def takeSamples (rIn sIn : List Sample) (s : State) : State :=
  let s1 := s.mapSlots fun _ sl => shiftSlot sl
  let s2 := s1.mapSlots fun p sl => let (a, b) := s1.entering rIn sIn p; { sl with r1 := a, s1 := b }
  { s2 with
    ctxs := s.ctxs.map fun e => (e.1, s1.frameRecord rIn sIn e.2)
    units := s.units.map fun e => (e.1, s1.frameUnit sIn e.2) }

/-! ### Highway sync (R52, R53) -/

/-- The observation of a frame is good: the boundary is marked and no other point (R52). -/
def goodMarks (m : SyncMarks) : Bool := m.atBoundary && !m.elsewhere

/-- The observation of this frame, kept to be made at its end (R49, R52; log 6). A missing one is of no mark at all (log 10). -/
def observeFrame (marks : List SyncMarks) (s : State) : State :=
  { s with sync := s.sync.map fun e =>
      (e.1, { e.2 with obs := some (goodMarks (marks.getD e.1 { atBoundary := false, elsewhere := false })) }) }

/-- A highway newly SEEKING: both counts 0, no observation of the current frame (R53, R58, R59). -/
def freshHighway : Highway := { sync := .seeking, good := 0, bad := 0, obs := none }

/-- Highway `h` set to `y`. -/
def State.setHighway (s : State) (h : Nat) (y : Highway) : State := { s with sync := tset h y s.sync }

/-- The counts after an observation, which is then made (R52). -/
def countObs (good : Bool) (y : Highway) : Highway :=
  if good then { y with good := min 8 (y.good + 1), bad := 0, obs := none }
  else { y with good := 0, bad := min 2 (y.bad + 1), obs := none }

/-- The pending observation takes a SEEKING highway to LOCKED. -/
def Highway.locks (y : Highway) : Bool := y.sync = .seeking && y.obs = some true && 7 ≤ y.good
/-- The pending observation takes a LOCKED highway to LOST. -/
def Highway.loses (y : Highway) : Bool := y.sync = .locked && y.obs = some false && 1 ≤ y.bad
/-- The pending observation takes a LOST highway to LOCKED. -/
def Highway.returns (y : Highway) : Bool := y.sync = .lost && y.obs = some true && 7 ≤ y.good

/-- SEEKING to LOCKED (R53). -/
def lockHighway (h : Nat) (y : Highway) (s : State) : State :=
  s.setHighway h { countObs true y with sync := .locked }
/-- LOCKED to LOST, raising SYNC_LOST (R53, R54). -/
def loseHighway (h : Nat) (y : Highway) (s : State) : State :=
  raiseHw .syncLost h (s.setHighway h { countObs false y with sync := .lost })
/-- LOST to LOCKED, raising SYNC_BACK (R53, R54). -/
def returnHighway (h : Nat) (y : Highway) (s : State) : State :=
  raiseHw .syncBack h (s.setHighway h { countObs true y with sync := .locked })

/-- The observation of the current frame is made for highway `h`, if it is still to be made, with the transition it brings. -/
def makeObs (s : State) (h : Nat) : State :=
  match tget h s.sync with
  | none => s
  | some y =>
    match y.obs with
    | none => s
    | some g =>
      if y.locks then lockHighway h y s
      else if y.loses then loseHighway h y s
      else if y.returns then returnHighway h y s
      else s.setHighway h (countObs g y)

end Sys2Proof.Machine
end

