-- ==== Sys2Proof/Machine/BlockEnd.lean ====
section
/-! DEFINITION. The block boundary: every record's block end (R70), the scheduler's selection (05), the search units' block (07),
and the events they make due. Every measure reads the state as it stood when the boundary is taken. -/

namespace Sys2Proof.Machine

/-! ### The gate (R96 to R100) -/

/-- The far activity test (R97). -/
def farTest (p : Profile) (r : Record) : Bool := 8 * (p.tFar * p.tFar) ≤ energy r.blk.ref

/-- The near activity test (R98). -/
def nearTest (p : Profile) (h : List Sample) (r : Record) : Bool :=
  peak (h.take (segTaps * r.id.span)) ≤ 2 * peak r.blk.sIn && p.tNear ≤ peak r.blk.sIn

/-- A hangover after its test (R99). -/
def hangover (full old : Nat) (hit : Bool) : Nat := if hit then full else old - 1

/-- The gate state of two hangovers (R100). -/
def gateOf (far near : Nat) : GateState :=
  match far, near with
  | 0, 0 => .idle
  | _ + 1, 0 => .far
  | 0, _ + 1 => .near
  | _ + 1, _ + 1 => .double

/-- The gate group decided for a worked block (R96). -/
def decideGate (p : Profile) (h : List Sample) (r : Record) : GateGroup :=
  let far := hangover 8 r.gate.far (farTest p r)
  let near := hangover 30 r.gate.near (nearTest p h r)
  { state := gateOf far near, far := far, near := near }

/-- The block just ended was worked (R55). -/
def workedBlock (r : Record) : Bool := r.blk.started && r.blk.worked

/-- The record is eligible for adaptation at its block end, the gate decided for the block being `g` (R72). -/
def eligible (g : GateState) (r : Record) : Bool :=
  workedBlock r && r.main.searchable && g = .far && r.tone.sub ≠ .bypass

/-! ### Convergence, deadline, divergence, quiet blocks -/

/-- A qualifying block is good (R79). -/
def goodBlock (es ee ef : Nat) : Bool := 4 * ee ≤ es || es * 10000 ≤ ef

/-- The deadline of a record of `n` segments (R83). -/
def deadlineOf (n : Nat) : Nat := 500 + 14 * (n + 1)

/-- The band of a divergence count (R129). -/
def bandOf (n : Nat) : Band := if n < 96 then .sound else if n < 128 then .warned else .suspect

/-- The block raises the divergence count to 256 (R130, R132). -/
def cutsAt (count es ee : Nat) : Bool := es < ee && 256 ≤ count + 8

/-- The divergence count after a counted block that does not cut (R130). -/
def divAfter (count es ee : Nat) : Nat :=
  if es < ee then count + 8 else if 2 * ee ≤ es then count - 1 else count

/-! ### Level adjustment (R160 to R162) -/

/-- A direction's gain and limit run after an adjusting block end (R161, R162). -/
def adjust (f : LevelFields) (l : LevelDir) : LevelDir :=
  let m := (l.avg * l.gain) / 4096
  let step := max 1 (l.gain / 128)
  if 8 * m < 7 * f.target then
    { l with gain := min f.gmax (l.gain + step), limit := if f.gmax ≤ l.gain then l.limit + 1 else 0 }
  else if 9 * f.target < 8 * m then
    { l with gain := max f.gmin (l.gain - step), limit := if l.gain ≤ f.gmin then l.limit + 1 else 0 }
  else { l with limit := 0 }

/-- The gate calls for a direction's adjustment (R160). -/
def talks (d : Dir) (g : GateState) : Bool :=
  match d, g with
  | .rx, .far => true
  | .rx, .double => true
  | .tx, .near => true
  | .tx, .double => true
  | .rx, .idle => false
  | .rx, .near => false
  | .tx, .idle => false
  | .tx, .far => false

/-- A direction is adjusting at a worked block end (R160). -/
def adjusting (f : LevelFields) (d : Dir) (g : GateState) (sub : ToneSub) : Bool :=
  f.mode = .auto && sub = .none && talks d g

/-- The level group of a direction after a worked block end. -/
def levelEnd (f : LevelFields) (d : Dir) (g : GateState) (sub : ToneSub) (l : LevelDir) : LevelDir :=
  if adjusting f d g sub then adjust f l else l

/-! ### Noise floor (R108, R109) -/

/-- The block level m (R109). -/
def blockLevel (l : List Sample) : Nat := ((l.map mag).sum) / 8

/-- The gate qualifies the block for the noise floor (R108). -/
def floorGate (g : GateState) : Bool := g = .idle || g = .far

/-- A rise of the noise floor is due: the rise counter stands at 15 and the block shows no lower level (R109). -/
def floorRises (g : GateState) (r : Record) : Bool :=
  floorGate g && r.resid.nf ≤ blockLevel r.blk.sIn && 15 ≤ r.resid.rise

/-- The residual group after a worked block end, a due rise apart (R109). -/
def floorEnd (g : GateState) (r : Record) : ResidGroup :=
  if !floorGate g then r.resid
  else if blockLevel r.blk.sIn < r.resid.nf then { r.resid with nf := blockLevel r.blk.sIn, rise := 0 }
  else if 15 ≤ r.resid.rise then r.resid
  else { r.resid with rise := r.resid.rise + 1 }

/-! ### Tone window (R57, R143) -/

/-- A direction with its window discarded: accumulators 0 (R57, R145). -/
def freshWindow (d : ToneDir) : ToneDir := { d with acc1 := 0, acc2 := 0, energy := 0 }

/-- The tone group with the window in progress discarded. -/
def discardWindow (t : ToneGroup) : ToneGroup := { t with rx := freshWindow t.rx, tx := freshWindow t.tx, blocks := 0 }

/-- The block just ended is the tenth worked block of the tone window. -/
def windowFull (t : ToneGroup) : Bool := 9 ≤ t.blocks

/-! ### Quiet blocks (R135, R136) -/

/-- The block is quiet: the record is in CUT and the gate decided for the block is IDLE (R135). -/
def quietBlock (g : GateState) (r : Record) : Bool := r.main = .cut && g = .idle

/-- The recovery mode lets a record out of CUT (R136). -/
def RecoveryMode.recovers : RecoveryMode → Bool
  | .auto => true
  | .holdAfter => true
  | .stay => false
  | .holdAtCut => false

/-! ### One record's block end -/

/-- The quantities of a worked block end that its parts share. -/
structure BlockView where
  gate : GateGroup
  es : Nat
  ee : Nat
  ef : Nat
  eligible : Bool
  deriving DecidableEq, Repr

/-- What the block end reads (R70, R71, R96). -/
def viewBlock (p : Profile) (h : List Sample) (r : Record) : BlockView :=
  let g := decideGate p h r
  { gate := g, es := energy r.blk.sIn, ee := energy r.blk.resid, ef := energy r.blk.ref, eligible := eligible g.state r }

/-- The block cuts the record. -/
def BlockView.cuts (v : BlockView) (r : Record) : Bool := v.eligible && cutsAt r.div.count v.es v.ee

/-- The block is a qualifying good one. -/
def BlockView.good (v : BlockView) : Bool := v.eligible && goodBlock v.es v.ee v.ef

/-- The block raises the run count to 32 (R80, R81). -/
def BlockView.converges (v : BlockView) (r : Record) : Bool := v.good && r.conv.run = 31

/-- The deadline expires (R84). -/
def BlockView.expires (v : BlockView) (r : Record) : Bool :=
  v.eligible && r.main = .acquire && deadlineOf r.segCount ≤ r.conv.deadline + 1

/-- The convergence group after the block end, before its events (R80, R83). -/
def convEnd (v : BlockView) (r : Record) : ConvGroup :=
  { r.conv with
    run := if v.good then min 32 (r.conv.run + 1) else if v.eligible then 0 else r.conv.run
    deadline := if v.eligible && r.main = .acquire && !v.expires r then r.conv.deadline + 1 else r.conv.deadline }

/-- The divergence group after the block end, before its events (R130, R131, R135). A count that reaches 256 is written by the CUT
event. -/
def divEnd (v : BlockView) (r : Record) : DivGroup :=
  let n := if v.eligible && !v.cuts r then divAfter r.div.count v.es v.ee else r.div.count
  { count := n, band := if v.eligible && !v.cuts r then bandOf n else r.div.band
    quiet := if quietBlock v.gate.state r then min 128 (r.div.quiet + 1) else r.div.quiet }

/-- The block end enters WARNED from SOUND (R131). -/
def entersWarned (v : BlockView) (r : Record) : Bool := r.div.band = .sound && (divEnd v r).band = .warned

/-- The block in progress, emptied for the block that opens; its windows are fixed at its first frame. -/
def openBlock (b : BlockData) : BlockData :=
  { b with started := true, worked := true, sIn := [], resid := [], ref := [] }

/-- A record after its worked block end, before its events; `v` is its view of the block (R70). -/
def workedEnd (p : Profile) (v : BlockView) (r : Record) : Record :=
  { r with
    conv := convEnd v r
    meas := { r.meas with es := v.es, ee := v.ee, ef := v.ef }
    gate := v.gate
    resid := floorEnd v.gate.state r
    tone := if windowFull r.tone then r.tone else { r.tone with blocks := r.tone.blocks + 1 }
    div := divEnd v r
    lev := { rx := levelEnd p.rx .rx v.gate.state r.tone.sub r.lev.rx, tx := levelEnd p.tx .tx v.gate.state r.tone.sub r.lev.tx }
    blk := openBlock r.blk }

/-- A record at a block boundary, before its events: its worked block end; a suspended block, which only ends the tone window
(R55, R57); or the start of its first block (R5). -/
def recordEnd (p : Profile) (h : List Sample) (r : Record) : Record :=
  if workedBlock r then workedEnd p (viewBlock p h r) r
  else if r.blk.started then { r with tone := discardWindow r.tone, blk := openBlock r.blk }
  else { r with blk := openBlock r.blk }

/-- The events of context `c` that the boundary makes due, in the order in which they are taken by default (log 5). -/
def dueEvents (p : Profile) (h : List Sample) (c : Nat) (r : Record) : List DueEvent :=
  if !workedBlock r then []
  else
    let v := viewBlock p h r
    let r' := workedEnd p v r
    (if v.expires r then [DueEvent.expiry c] else []) ++
    (if v.converges r && !v.cuts r && r.main ≠ .track then [DueEvent.convergence c] else []) ++
    (if v.cuts r then [DueEvent.cut c] else []) ++
    (if quietBlock v.gate.state r && r'.div.quiet = 128 && p.recovery.recovers then [DueEvent.recovery c] else []) ++
    (if floorRises v.gate.state r then [DueEvent.noiseFloorRise c] else []) ++
    (if r'.lev.rx.limit = 1000 && adjusting p.rx .rx v.gate.state r.tone.sub then [DueEvent.level c .rx] else []) ++
    (if r'.lev.tx.limit = 1000 && adjusting p.tx .tx v.gate.state r.tone.sub then [DueEvent.level c .tx] else []) ++
    (if windowFull r.tone then [DueEvent.windowEnd c] else [])

/-! ### Selection (R86 to R92) -/

/-- The gate state decided for the record's block. -/
def State.gateNow (s : State) (r : Record) : GateState := (decideGate (s.profileOf r) (s.histOf r) r).state

/-- The block's candidates, ascending (R87). -/
def State.candidates (s : State) : List (Nat × Record) := s.ctxs.filter fun e => eligible (s.gateNow e.2) e.2

/-- The class of a candidate in URGENCY mode (R90). -/
def urgencyClass (r : Record) : Nat :=
  if 16 ≤ r.skip then 0
  else if r.main = .track && r.div.band ≠ .suspect then 2
  else 1

/-- The order of the walk (R90, R91). -/
def walkOrder (mode : SchedMode) (pointer : Nat) (cs : List (Nat × Record)) : List (Nat × Record) :=
  match mode with
  | .urgency =>
    (cs.filter fun e => urgencyClass e.2 = 0) ++ (cs.filter fun e => urgencyClass e.2 = 1) ++
    (cs.filter fun e => urgencyClass e.2 = 2)
  | .index => (cs.filter fun e => pointer ≤ e.1) ++ (cs.filter fun e => e.1 < pointer)

/-- The walk: contexts selected, in walk order, from a remaining budget (R89). -/
def walk : Nat → List (Nat × Record) → List Nat
  | _, [] => []
  | budget, (c, r) :: t => if r.tapCount ≤ budget then c :: walk (budget - r.tapCount) t else walk budget t

/-- The contexts selected at the boundary, in walk order. -/
def State.selection (s : State) : List Nat := walk tapBudget (walkOrder s.sched s.pointer s.candidates)

/-- The rotation pointer after the walk (R91). -/
def pointerAfter (mode : SchedMode) (pointer : Nat) (selected : List Nat) : Nat :=
  match mode, selected.getLast? with
  | .urgency, _ => pointer
  | .index, none => pointer
  | .index, some c => (c + 1) % nContexts

/-- The skip count after the boundary (R92). -/
def skipAfter (candidate selected : Bool) (old : Nat) : Nat :=
  if !candidate then old else if selected then 0 else min 255 (old + 1)

/-! ### Coefficient update (R73 to R77) -/

/-- The correlations of `n` successive taps from the history `h` on, the residuals newest first (R73). After the block's eighth
frame the history entry that frame i saw at delay k stands at delay k + 7 - i. -/
def correlations (eNewest : List Sample) : List Sample → Nat → List Int
  | _, 0 => []
  | h, n + 1 => dot eNewest h :: correlations eNewest h.tail n

/-- A coefficient moved by its step and saturated (R76, R77, R117). -/
def stepCoeff (mu d : Nat) (c : Coeff) (g : Int) : Coeff := sat16 (c.toInt + roundAway (16 * mu * g) d)

/-- The step size of a record (R75). -/
def stepSize (p : Profile) (r : Record) : Nat :=
  if r.main = .track && r.div.band ≠ .suspect then p.muTrack else p.muAcq

/-- The normaliser (R74). -/
def normaliser (p : Profile) (r : Record) : Nat := r.tapCount * r.meas.px + p.delta

/-- The pool after the coefficient update of one selected record (R73 to R77). -/
def adaptRecord (p : Profile) (h : List Sample) (r : Record) (pool : List (Nat × List Coeff)) : List (Nat × List Coeff) :=
  r.wins.list.foldl (fun q w =>
    let cs := windowCoeffs pool w
    let gs := correlations r.blk.resid.reverse (h.drop (segTaps * w.base)) cs.length
    writeRun q w.segs (List.zipWith (stepCoeff (stepSize p r) (normaliser p r)) cs gs)) pool

/-- The pool after the updates of the selected records. -/
def State.adapt (s : State) (selected : List Nat) : List (Nat × List Coeff) :=
  s.ctxs.foldl (fun q e =>
    if e.1 ∈ selected then adaptRecord (s.profileOf e.2) (s.histOf e.2) e.2 q else q) s.pool

/-! ### Search units (R117, R118) -/

/-- The block qualifies for a search of the record (R117). -/
def searchQualifies (g : GateState) (r : Record) : Bool := workedBlock r && g = .far && r.tone.sub ≠ .bypass

/-- The shadow filter after a qualifying block (R117). -/
def shadowUpdate (p : Profile) (h : List Sample) (r : Record) (un : SearchUnit) : List Coeff :=
  let n := segTaps * un.span
  let d := nTaps * r.meas.px + p.delta
  List.zipWith (stepCoeff 128 d) (un.shadow.take n) (correlations un.resid.reverse h n) ++ un.shadow.drop n

/-- A unit's work at a block boundary: in a search whose first block has begun, the block is counted and, when it qualifies, learnt
from (R117, R118). -/
def State.unitEnd (s : State) (un : SearchUnit) : SearchUnit :=
  match s.rec? un.ctx with
  | none => un
  | some r =>
    if !un.begun then { un with begun := true, resid := [] }
    else
      let un1 := { un with blocks := un.blocks + 1, resid := [] }
      if searchQualifies (s.gateNow r) r then
        { un1 with shadow := shadowUpdate (s.profileOf r) (s.histOf r) r un, qual := un.qual + 1 }
      else un1

/-! ### The boundary -/

/-- The stamp counter advances at this boundary (R61). -/
def State.stampDue (s : State) : Bool := s.stampUnit ≤ s.prescale + 1

/-- Every record at the boundary: its block end and its skip count (R70, R92). -/
def State.boundaryRecord (s : State) (selected : List Nat) (c : Nat) (r : Record) : Record :=
  { recordEnd (s.profileOf r) (s.histOf r) r with skip := skipAfter (eligible (s.gateNow r) r) (decide (c ∈ selected)) r.skip }

/-- The contexts whose band enters WARNED from SOUND at the boundary (R131). -/
def State.warnedNow (s : State) : List Nat :=
  (s.ctxs.filter fun e => workedBlock e.2 && entersWarned (viewBlock (s.profileOf e.2) (s.histOf e.2) e.2) e.2).map (·.1)

/-- The block boundary: the block counter rises, every record's block end is taken, the scheduler selects, the search units do their
block, and the events that the counts have brought about are due (R47, R55, R61, R70, R86). -/
def blockBoundary (s : State) : State :=
  let selected := s.selection
  let s1 := { s with
    phase := 0
    blockCounter := s.blockCounter + 1
    pointer := pointerAfter s.sched s.pointer selected
    ctxs := s.ctxs.map fun e => (e.1, s.boundaryRecord selected e.1 e.2)
    pool := s.adapt selected
    units := s.units.map fun e => (e.1, s.unitEnd e.2)
    prescale := if s.stampDue then s.prescale else s.prescale + 1
    due := s.ctxs.flatMap (fun e => dueEvents (s.profileOf e.2) (s.histOf e.2) e.1 e.2) ++
           if s.stampDue then [DueEvent.stampAdvance] else [] }
  s.warnedNow.foldl (fun t c => raise .warned c t) s1

end Sys2Proof.Machine
end

