-- ==== Sys2Proof/Machine/Events.lean ====
section
/-! DEFINITION. The events that a block boundary makes due, and the meanings of their rows: what each does when it is taken, and the
settling of those that are still due (log 4, 5). All of them are part of the boundary, so a search they start has its first block in
the block that the boundary opens (R114). -/

namespace Sys2Proof.Machine

/-! ### Convergence and deadline (R81, R84) -/

/-- CONVERGENCE: an ACQUIRE record goes to TRACK and CONVERGED is raised; an OBSERVE record sets observe-converged (R81). -/
def takeConvergence (c : Nat) (s : State) : State :=
  match s.rec? c with
  | none => s
  | some r =>
    match r.main with
    | .acquire => raise .converged c (changeMain .track c true s)
    | .observe => s.setRec c { r with conv := { r.conv with observeConverged := true } }
    | .track => s
    | .held => s
    | .cut => s

/-- EXPIRY: the deadline count is set to 0; the first and second raise SLOW, the first requests a search (R84). A record that a cut of
the same block end has taken to CUT or HELD has no expiry (R85; log 21). -/
def takeExpiry (c : Nat) (s : State) : State :=
  match s.rec? c with
  | none => s
  | some r =>
    if r.main.searchable then
      match r.conv.expiry with
      | 0 => requestSearch c true (raise .slow c (s.setRec c { r with conv := { r.conv with deadline := 0, expiry := 1 } }))
      | 1 => raise .slow c (s.setRec c { r with conv := { r.conv with deadline := 0, expiry := 2 } })
      | _ => s.setRec c { r with conv := { r.conv with deadline := 0 } }
    else s

/-! ### Divergence (R132, R133, R136) -/

/-- Where a cut takes a record (R132). -/
def RecoveryMode.cutState : RecoveryMode → MainState
  | .auto => .cut
  | .holdAfter => .cut
  | .stay => .cut
  | .holdAtCut => .held

/-- The fields of a record that its cut sets, its main state apart (R132, R133). -/
def cutFields (r : Record) : Record :=
  { r with conv := { r.conv with convergedOnce := false, run := 0 }, div := { count := 256, band := .suspect, quiet := 0 } }

/-- CUT: count 256; coefficients zeroed; to CUT or HELD by the recovery mode, ending any search; CUT is raised (R132, R133). -/
def takeCut (c : Nat) (s : State) : State :=
  match s.rec? c with
  | none => s
  | some r =>
    if r.main.searchable then
      let s1 := { s.setRec c (cutFields r) with pool := zeroWindows s.pool r.wins }
      raise .cut c (changeMain (s.profileOf r).recovery.cutState c true s1)
    else s

/-- A divergence group set to 0 (R136, R139). -/
def soundGroup : DivGroup := { count := 0, band := .sound, quiet := 0 }

/-- RECOVERY: under AUTO to ACQUIRE with a search requested, under HOLD_AFTER to HELD; RESTORED is raised (R136). -/
def takeRecovery (c : Nat) (s : State) : State :=
  match s.rec? c with
  | none => s
  | some r =>
    if r.main = .cut then
      let s1 := s.setRec c { r with div := soundGroup }
      match (s.profileOf r).recovery with
      | .auto => raise .restored c (requestSearch c true (changeMain .acquire c true s1))
      | .holdAfter => raise .restored c (changeMain .held c true s1)
      | .stay => s
      | .holdAtCut => s
    else s

/-! ### Levels, noise floor, stamp (R162, R109, R61) -/

/-- LEVEL: the direction's limit run is set to 0 and LEVEL is raised (R162). -/
def takeLevel (c : Nat) (d : Dir) (s : State) : State :=
  raise .level c (s.modRec c fun r =>
    match d with
    | .rx => { r with lev := { r.lev with rx := { r.lev.rx with limit := 0 } } }
    | .tx => { r with lev := { r.lev with tx := { r.lev.tx with limit := 0 } } })

/-- The noise floor after a rise (R109). -/
def raisedFloor (nf : Nat) : Nat := min 32767 (nf + max 1 (nf / 64))

/-- NOISE_FLOOR_RISE: Nf rises by max(1, Nf >> 6), at most to 32767, and the rise counter returns to 0 (R109). -/
def takeFloorRise (c : Nat) (s : State) : State :=
  s.modRec c fun r => { r with resid := { r.resid with nf := raisedFloor r.resid.nf, rise := 0 } }

/-- STAMP_ADVANCE: the prescale count returns to 0 and the stamp counter advances (R61). -/
def takeStamp (s : State) : State := { s with prescale := 0, stamp := s.stamp + 1 }

/-! ### Tone windows (R145 to R151) -/

/-- P, the window's energy at 2100 Hz (R145). -/
def tonePower (d : ToneDir) : Int := d.acc1 * d.acc1 + d.acc2 * d.acc2 - (-2571 * d.acc1 * d.acc2) / 16384

/-- The direction's window is tonal (R145). -/
def tonal (wMin : Nat) (d : ToneDir) : Bool := wMin ≤ d.energy && 20 * (d.energy : Int) ≤ tonePower d

/-- A reversal is seen in the direction (R147). -/
def reverses (wMin : Nat) (d : ToneDir) : Bool :=
  tonal wMin d && d.gap ≤ 1 &&
    match d.prev with
    | none => false
    | some (p1, p2) => d.acc1 * p1 + d.acc2 * p2 < 0

/-- The direction's run falls from above 0 to 0 at this window (R146). -/
def runEnds (wMin : Nat) (d : ToneDir) : Bool := !tonal wMin d && d.gap = 1 && 0 < d.run

/-- The direction after a window with a result (R146). -/
def runEnd (wMin : Nat) (d : ToneDir) : ToneDir :=
  if tonal wMin d then freshWindow { d with run := min 30 (d.run + 1), gap := 0, prev := some (d.acc1, d.acc2) }
  else freshWindow { d with run := if d.gap = 1 then 0 else d.run, gap := min 2 (d.gap + 1) }

/-- A direction with nothing remembered (R11, R150, R151). -/
def emptyDir : ToneDir := { acc1 := 0, acc2 := 0, energy := 0, prev := none, run := 0, gap := 0 }

/-- The tone group cleared, its sub-state kept (R150, R151). -/
def clearTone (t : ToneGroup) : ToneGroup :=
  { t with rx := emptyDir, tx := emptyDir, reversal := false, release := 0, blocks := 0 }

/-- The tone group after the updates of R146 and R147. -/
def windowRuns (wMin : Nat) (t : ToneGroup) : ToneGroup :=
  let seen := reverses wMin t.rx || reverses wMin t.tx
  let ends := runEnds wMin t.rx || runEnds wMin t.tx
  { t with rx := runEnd wMin t.rx, tx := runEnd wMin t.tx, blocks := 0
           reversal := if seen then true else if ends then false else t.reversal }

/-- Both directions of the window are quiet (R150). -/
def quietWindow (wRel : Nat) (t : ToneGroup) : Bool := t.rx.energy < wRel && t.tx.energy < wRel

/-- WINDOW_END with the tone enable off: everything is cleared and the sub-state returns to NONE (R151). -/
def windowEndOff (c : Nat) (r : Record) (s : State) : State :=
  if r.tone.sub = .none then s.setRec c { r with tone := clearTone r.tone }
  else changeTone .none c (s.setRec c { r with tone := clearTone r.tone, conv := { r.conv with run := 0 } })

/-- WINDOW_END with the tone enable on: runs, gaps, reversal; a reversal takes NLP_OFF to BYPASS; otherwise the release count of
NLP_OFF and BYPASS moves; an entry from NONE or a release becomes due (R146 to R150). -/
def windowEndOn (p : Profile) (c : Nat) (r : Record) (s : State) : State :=
  let t := windowRuns p.wMin r.tone
  match r.tone.sub with
  | .none =>
    let s1 := s.setRec c { r with tone := t }
    if t.rx.run = 30 ∨ t.tx.run = 30 then { s1 with due := s1.due ++ [DueEvent.toneEntry c] } else s1
  | .nlpOff =>
    if reverses p.wMin r.tone.rx || reverses p.wMin r.tone.tx then changeTone .bypass c (s.setRec c { r with tone := t })
    else countRelease t
  | .bypass => countRelease t
where
  /-- The release count after the window (R150). -/
  countRelease (t : ToneGroup) : State :=
    let n := if quietWindow p.wRel r.tone then min 25 (t.release + 1) else 0
    let s1 := s.setRec c { r with tone := { t with release := n } }
    if n = 25 then { s1 with due := s1.due ++ [DueEvent.release c] } else s1

/-- WINDOW_END (R145 to R151). -/
def takeWindowEnd (c : Nat) (s : State) : State :=
  match s.rec? c with
  | none => s
  | some r =>
    let p := s.profileOf r
    if p.toneEnable then windowEndOn p c r s else windowEndOff c r s

/-- TONE_ENTRY: from NONE to BYPASS when the reversal-seen flag is set, otherwise to NLP_OFF (R148, R152). -/
def takeToneEntry (c : Nat) (s : State) : State :=
  match s.rec? c with
  | none => s
  | some r =>
    if r.tone.sub = .none then changeTone (if r.tone.reversal then .bypass else .nlpOff) c s else s

/-- RELEASE: the sub-state returns to NONE, the tone group and the run count are cleared (R150, R152). -/
def takeRelease (c : Nat) (s : State) : State :=
  match s.rec? c with
  | none => s
  | some r =>
    if r.tone.sub = .none then s
    else changeTone .none c (s.setRec c { r with tone := clearTone r.tone, conv := { r.conv with run := 0 } })

/-! ### Due events -/

/-- A due event is taken. -/
def takeEvent (e : DueEvent) (s : State) : State :=
  match e with
  | .convergence c => takeConvergence c s
  | .expiry c => takeExpiry c s
  | .cut c => takeCut c s
  | .recovery c => takeRecovery c s
  | .level c d => takeLevel c d s
  | .noiseFloorRise c => takeFloorRise c s
  | .stampAdvance => takeStamp s
  | .windowEnd c => takeWindowEnd c s
  | .toneEntry c => takeToneEntry c s
  | .release c => takeRelease c s

/-- Every event now due is taken, in order; events that these bring about are due after it. -/
def settlePass (s : State) : State := s.due.foldl (fun t e => takeEvent e t) { s with due := [] }

/-- The last boundary is finished: the events due, then the tone entries and releases that its window ends brought about (log 4). -/
def settle (s : State) : State := { settlePass (settlePass s) with due := [] }

/-- A row's event: taken if it is due; otherwise it does not happen and nothing changes (log 3). -/
def takeDue (e : DueEvent) (s : State) : State :=
  if e ∈ s.due then takeEvent e { s with due := s.due.erase e } else s

/-! ### Meanings of the event rows -/

/-- CONVERGENCE. -/
def execConvergence (c : Nat) (s : State) : Host.Outcome State Fault Refusal := .next (takeDue (.convergence c) s)
/-- EXPIRY. -/
def execExpiry (c : Nat) (s : State) : Host.Outcome State Fault Refusal := .next (takeDue (.expiry c) s)
/-- CUT. -/
def execCut (c : Nat) (s : State) : Host.Outcome State Fault Refusal := .next (takeDue (.cut c) s)
/-- RECOVERY. -/
def execRecovery (c : Nat) (s : State) : Host.Outcome State Fault Refusal := .next (takeDue (.recovery c) s)
/-- LEVEL. -/
def execLevel (c : Nat) (d : Dir) (s : State) : Host.Outcome State Fault Refusal := .next (takeDue (.level c d) s)
/-- NOISE_FLOOR_RISE. -/
def execNoiseFloorRise (c : Nat) (s : State) : Host.Outcome State Fault Refusal := .next (takeDue (.noiseFloorRise c) s)
/-- STAMP_ADVANCE. -/
def execStampAdvance (s : State) : Host.Outcome State Fault Refusal := .next (takeDue .stampAdvance s)
/-- WINDOW_END. -/
def execWindowEnd (c : Nat) (s : State) : Host.Outcome State Fault Refusal := .next (takeDue (.windowEnd c) s)
/-- TONE_ENTRY. -/
def execToneEntry (c : Nat) (s : State) : Host.Outcome State Fault Refusal := .next (takeDue (.toneEntry c) s)
/-- RELEASE. -/
def execRelease (c : Nat) (s : State) : Host.Outcome State Fault Refusal := .next (takeDue (.release c) s)

end Sys2Proof.Machine
end

