-- ==== Sys2Proof/Machine/Operands.lean ====
section
/-! DEFINITION. The operands of the link commands: keys, profile operands, window operands, mode fields, the clamps of SET PROFILE;
and the encodings of the responses (R190). -/

namespace Sys2Proof.Machine

/-! ### Encoding -/

/-- A number in two bytes. -/
def nat16 (n : Nat) : List Byte := be16 (BitVec.ofNat 16 n)

/-- A number in four bytes. -/
def nat32 (n : Nat) : List Byte := be32 (BitVec.ofNat 32 n)

/-- A number in one byte. -/
def nat8 (n : Nat) : Byte := BitVec.ofNat 8 n

/-- A flag in one byte. -/
def flag8 (b : Bool) : Byte := if b then 1 else 0

/-- A number saturated to 32 bits (R9). -/
def sat32 (n : Nat) : Nat := min 4294967295 n

/-- The bytes of a response: status, flags, body length, body, check byte (R177, R190). -/
def Response.bytes (r : Response) : List Byte :=
  let m := r.status.code :: r.flags :: nat8 r.body.length :: r.body
  m ++ [checkByte m]

/-- The response of a read of an empty buffer: status NONE, flags 0, body length 0 (R177). -/
def emptyResponse : Response :=
  { status := .none, overrun := false, clamped := false, shortened := false, already := false, body := [] }

/-- A window set: first base and limit, second present, second base and limit (R190). -/
def windowSet (w : Windows) : List Byte :=
  [nat8 w.first.base, nat8 w.first.limit] ++
  match w.second with
  | none => [0, 0, 0]
  | some v => [1, nat8 v.base, nat8 v.limit]

/-! ### Keys (R4) -/

/-- The highway is 0..7 and the slot 0..63. -/
def keyInRange (hw slot : Byte) : Bool := hw.toNat < nHighways && slot.toNat < nSlots

/-- A command on a record: RANGE for a key out of range, UNBOUND for one that the circuit index does not hold, otherwise `f` on the
context and its record (R4; an index entry without a record, which no run holds, counts as no entry: log 23). -/
def keyed (hw slot : Byte) (s : State) (f : Nat → Record → State × Reply) : State × Reply :=
  if !keyInRange hw slot then (s, refuse .range)
  else
    match tget (position hw.toNat slot.toNat) s.index with
    | none => (s, refuse .unbound)
    | some c =>
      match s.rec? c with
      | none => (s, refuse .unbound)
      | some r => f c r

/-! ### Profile operands -/

/-- The profile operand of BIND names AUTO (R190). -/
def isAuto (p : Byte) : Bool := p = 0xFF#8

/-- The number names a profile. -/
def profileInRange (p : Byte) : Bool := p.toNat < nProfiles

/-- A profile's selector matches a key under its mask (R17). -/
def matchesKey (p : Profile) (hw slot : Byte) : Bool :=
  p.matchEnable && ((hw ^^^ p.selHw) &&& p.hwMask) = 0 && ((slot ^^^ p.selSlot) &&& p.slotMask) = 0

/-- The profile that a BIND operand selects: the number given, or the lowest-numbered match (R16, R17). -/
def State.pickProfile (s : State) (hw slot profile : Byte) : Option Nat :=
  if isAuto profile then (List.range nProfiles).find? fun p => matchesKey (s.profile p) hw slot
  else some profile.toNat

/-! ### Window operands (R42) -/

/-- The window and list position that READ TAPS and WRITE TAPS name: the tap segment's number and position in the span; none where
the operand names no window, the window is absent, or the position is not below its list length. -/
def tapSegment (w : Windows) (win pos : Byte) : Option (Nat × Nat) :=
  let v := match win.toNat with
    | 0 => some w.first
    | 1 => w.second
    | _ => none
  match v with
  | none => none
  | some v => match v.segs[pos.toNat]? with
    | none => none
    | some g => some (g, v.base + pos.toNat)

/-! ### Mode fields (R190) -/

/-- An NLP mode; 3 names none. -/
def nlpOfBits (w : BitVec 2) : Option NlpMode :=
  match w.toNat with
  | 0 => some .off
  | 1 => some .clip
  | 2 => some .noise
  | _ => none

/-- A level mode; 2 and 3 name none. -/
def levelOfBits (w : BitVec 2) : Option LevelMode :=
  match w.toNat with
  | 0 => some .fixed
  | 1 => some .auto
  | _ => none

/-- A recovery mode. -/
def recoveryOfBits (w : BitVec 2) : RecoveryMode :=
  match w.toNat with
  | 0 => .auto
  | 1 => .holdAtCut
  | 2 => .holdAfter
  | _ => .stay

/-- The code of an NLP mode. -/
def NlpMode.bits : NlpMode → BitVec 2
  | .off => 0
  | .clip => 1
  | .noise => 2

/-- The code of a level mode. -/
def LevelMode.bits : LevelMode → BitVec 2
  | .fixed => 0
  | .auto => 1

/-- The code of a recovery mode. -/
def RecoveryMode.bits : RecoveryMode → BitVec 2
  | .auto => 0
  | .holdAtCut => 1
  | .holdAfter => 2
  | .stay => 3

/-- A scheduling mode from its byte; others name none. -/
def schedOfByte (b : Byte) : Option SchedMode :=
  match b.toNat with
  | 0 => some .urgency
  | 1 => some .index
  | _ => none

/-- The code of a scheduling mode. -/
def SchedMode.code : SchedMode → Byte
  | .urgency => 0
  | .index => 1

/-- A stamp unit: 1, 2, 4 or 8 blocks. -/
def unitOfByte (b : Byte) : Option Nat :=
  match b.toNat with
  | 1 => some 1
  | 2 => some 2
  | 4 => some 4
  | 8 => some 8
  | _ => none

/-- The settings that bytes 1 and 2 of a CONFIGURE body hold; other bits are ignored. -/
def settingsOf (routing modes : Byte) : Settings :=
  { routeLost := Route.ofBits (routing.extractLsb' 0 2), routeBack := Route.ofBits (routing.extractLsb' 2 2)
    modeA := if modes.getLsbD 0 then .pulsed else .latched, modeB := if modes.getLsbD 1 then .pulsed else .latched
    merge := modes.getLsbD 2, policy := if modes.getLsbD 3 then .keep else .overwrite }

/-- Byte 1 of the layout of CONFIGURE. -/
def Settings.routingByte (t : Settings) : Byte := 0#4 ++ t.routeBack.bits ++ t.routeLost.bits

/-- Byte 2 of the layout of CONFIGURE. -/
def Settings.modeByte (t : Settings) : Byte :=
  0#4 ++ BitVec.ofBool (t.policy == .keep) ++ BitVec.ofBool t.merge ++ BitVec.ofBool (t.modeB == .pulsed) ++
    BitVec.ofBool (t.modeA == .pulsed)

/-! ### The clamps of SET PROFILE (R170) -/

/-- A gain field, target or threshold, at most 32767. -/
def clamp15 (w : BitVec 16) : Nat := min 32767 w.toNat

/-- A count of segments: 0 is stored as 1, above 64 as 64. -/
def clampSegs (b : Byte) : Nat := clampNat b.toNat 1 64

/-- A step size: 0 is stored as 1. -/
def clampMu (b : Byte) : Nat := max 1 b.toNat

/-- The level fields of one direction as stored, Gmin and Gmax being in order (R170). -/
def storedLevel (mode : LevelMode) (l : LevelMsg) : LevelFields :=
  { mode := mode, target := clamp15 l.target, gmin := clamp15 l.gmin, gmax := clamp15 l.gmax
    g0 := clampNat (clamp15 l.g0) (clamp15 l.gmin) (clamp15 l.gmax) }

/-- The bind-time fields as stored (R170). -/
def storedBind (f : ProfileMsg) : BindFields :=
  { span := clampSegs f.span, b0 := min 63 f.b0.toNat, w0 := clampSegs f.w0, w1 := clampSegs f.w1, twoWindows := f.twoWindows
    minSeg := clampSegs f.minSeg, searchAtBind := f.searchAtBind }

/-- The profile as stored, with its modes and in-use count (R170, R171). -/
def storedProfile (f : ProfileMsg) (nlp : NlpMode) (rx tx : LevelMode) (inUse : Nat) : Profile :=
  { selHw := f.selHw.setWidth 8, hwMask := f.hwMask.setWidth 8, selSlot := f.selSlot, slotMask := f.slotMask
    matchEnable := f.matchEnable, bindTime := storedBind f
    muAcq := clampMu f.muAcq, muTrack := clampMu f.muTrack, delta := clampNat f.delta.toNat 1 16777216
    tFar := clamp15 f.tFar, tNear := clamp15 f.tNear, nlp := nlp
    rx := storedLevel rx f.rx, tx := storedLevel tx f.tx
    toneEnable := f.toneEnable, wMin := f.wMin.toNat, wRel := f.wRel.toNat, recovery := recoveryOfBits f.recovery
    routing := f.routing, inUse := inUse }

/-- A level field as stored differs from its operand. -/
def levelClamped (l : LevelMsg) (v : LevelFields) : Bool :=
  v.target ≠ l.target.toNat || v.gmin ≠ l.gmin.toNat || v.gmax ≠ l.gmax.toNat || v.g0 ≠ l.g0.toNat

/-- A value as stored differs from its operand: the response carries CLAMPED (R170). -/
def profileClamped (f : ProfileMsg) (p : Profile) : Bool :=
  p.bindTime.span ≠ f.span.toNat || p.bindTime.b0 ≠ f.b0.toNat || p.bindTime.w0 ≠ f.w0.toNat || p.bindTime.w1 ≠ f.w1.toNat ||
  p.bindTime.minSeg ≠ f.minSeg.toNat || p.muAcq ≠ f.muAcq.toNat || p.muTrack ≠ f.muTrack.toNat || p.delta ≠ f.delta.toNat ||
  p.tFar ≠ f.tFar.toNat || p.tNear ≠ f.tNear.toNat || levelClamped f.rx p.rx || levelClamped f.tx p.tx

/-- The level fields of a direction in the layout of the SET PROFILE body. -/
def LevelFields.msg (l : LevelFields) : LevelMsg :=
  { target := BitVec.ofNat 16 l.target, gmin := BitVec.ofNat 16 l.gmin, gmax := BitVec.ofNat 16 l.gmax, g0 := BitVec.ofNat 16 l.g0 }

/-- A profile's fields in the layout of the SET PROFILE body (R190). -/
def Profile.msg (p : Profile) : ProfileMsg :=
  { selHw := p.selHw.setWidth 4, hwMask := p.hwMask.setWidth 4, selSlot := p.selSlot, slotMask := p.slotMask
    matchEnable := p.matchEnable, twoWindows := p.bindTime.twoWindows, searchAtBind := p.bindTime.searchAtBind
    toneEnable := p.toneEnable
    span := nat8 p.bindTime.span, b0 := nat8 p.bindTime.b0, w0 := nat8 p.bindTime.w0, w1 := nat8 p.bindTime.w1
    minSeg := nat8 p.bindTime.minSeg, muAcq := nat8 p.muAcq, muTrack := nat8 p.muTrack
    delta := BitVec.ofNat 32 p.delta, tFar := BitVec.ofNat 16 p.tFar, tNear := BitVec.ofNat 16 p.tNear
    nlp := p.nlp.bits, rxMode := p.rx.mode.bits, txMode := p.tx.mode.bits, recovery := p.recovery.bits
    rx := p.rx.msg, tx := p.tx.msg, wMin := BitVec.ofNat 32 p.wMin, wRel := BitVec.ofNat 32 p.wRel, routing := p.routing }

/-! ### Taking a command -/

/-- The code and body length of the message that a command of `n` body bytes is; the part sends 0xFF in each of its bytes (R175). -/
def idleBytes (n : Nat) : List Byte := List.replicate n 0xFF#8

/-- A command message of `n` whole bytes is taken: the last boundary is finished first (log 4), then the command's whole effect and its
response come about (R176, R177). -/
def State.command (n : Nat) (f : State → State × Reply) (s : State) : State :=
  let out := f (settle s)
  { out.1.place out.2 with linkOut := idleBytes n }

end Sys2Proof.Machine
end

