-- ==== Sys2Proof/Machine/Timing.lean ====
section
/-! DEFINITION. The meanings of POWER_ON, FRAME, BLOCK_BOUNDARY, of the sync transitions and of the ends of a search. -/

namespace Sys2Proof.Machine

/-! ### What time forces -/

/-- A boundary is due: the eighth frame of the block has been taken (R47). -/
def State.boundaryDue (s : State) : Bool := blockFrames ≤ s.phase

/-- A completion or failure of unit `u` that is due is taken, at the boundary just past (R119, R125). -/
def finishUnit (s : State) (u : Nat) : State :=
  match tget u s.units with
  | none => s
  | some un =>
    if un.complete then completeSearch u un true s else if un.failed then failSearch u un true s else s

/-- The frame in progress ends: its sync observations are made, a boundary that is due is taken, its events are settled, and the
searches that it ends are completed or failed (log 6, 7). -/
def closeFrame (s : State) : State :=
  let s1 := (List.range nHighways).foldl makeObs s
  let s2 := settle (if s1.boundaryDue then blockBoundary (settle s1) else s1)
  (List.range nUnits).foldl finishUnit s2

/-- The next frame begins: the alert lines change (R184), and what holds for the frame or the block is fixed. -/
def openFrame (s : State) : State :=
  let s1 := s.startLines
  s1.mapRecs (openRecord s1)

/-! ### Meanings -/

/-- POWER_ON: every piece of state takes its power-on value and frame 0 is the next (R47). The steps still waiting stay in the
queue, which is the outside's. -/
def execPowerOn (s : State) : Host.Outcome State Fault Refusal := .next { State.reset with pending := s.pending }

/-- FRAME: the frame in progress ends and the next is taken, with its samples and its sync observations (R47 to R52, R55). -/
def execFrame (rIn sIn : List Sample) (marks : List SyncMarks) (s : State) : Host.Outcome State Fault Refusal :=
  let s1 := observeFrame marks (takeSamples rIn sIn (openFrame (closeFrame s)))
  .next { s1 with phase := s1.phase + 1 }

/-- BLOCK_BOUNDARY: taken when the eighth frame of a block has been taken; at any other moment there is none (R47, log 3). -/
def execBlockBoundary (s : State) : Host.Outcome State Fault Refusal :=
  .next (if s.boundaryDue then blockBoundary (settle s) else s)

/-- A sync transition of highway `h`, taken if the pending observation brings it, and otherwise not happening (R53, log 3, 6). -/
def takeSync (brings : Highway → Bool) (act : Nat → Highway → State → State) (h : Nat) (s : State) : State :=
  match tget h s.sync with
  | none => s
  | some y => if brings y then act h y s else s

/-- LOCK. -/
def execLock (h : Nat) (s : State) : Host.Outcome State Fault Refusal := .next (takeSync Highway.locks lockHighway h s)
/-- SYNC_LOST. -/
def execSyncLost (h : Nat) (s : State) : Host.Outcome State Fault Refusal := .next (takeSync Highway.loses loseHighway h s)
/-- SYNC_BACK. -/
def execSyncBack (h : Nat) (s : State) : Host.Outcome State Fault Refusal := .next (takeSync Highway.returns returnHighway h s)

/-- The end of unit `u`'s search, `act`, taken if it is due: after the boundary, on the unit as the boundary left it; before the
boundary, after the unit's own work of the block (R119; log 3, 17). -/
def takeSearchEnd (ends : SearchUnit → Bool) (act : Nat → SearchUnit → Bool → State → State) (u : Nat) (s : State) : State :=
  let s1 := settle s
  match tget u s1.units with
  | none => s
  | some un =>
    if s1.boundaryDue then
      if un.begun && ends (s1.unitEnd un) then act u (s1.unitEnd un) false s1 else s
    else if ends un then act u un true s1
    else s

/-- SEARCH_COMPLETION. -/
def execSearchCompletion (u : Nat) (s : State) : Host.Outcome State Fault Refusal :=
  .next (takeSearchEnd SearchUnit.complete completeSearch u s)
/-- SEARCH_FAILURE. -/
def execSearchFailure (u : Nat) (s : State) : Host.Outcome State Fault Refusal :=
  .next (takeSearchEnd SearchUnit.failed failSearch u s)

end Sys2Proof.Machine
end

