-- ==== Sys2Proof/Machine/Part.lean ====
section
/-! DEFINITION. The part-wide commands: CONFIGURE, READ CONFIG, RESET HIGHWAY, RESET STAMP, FETCH NOTICE. -/

namespace Sys2Proof.Machine

/-! ### CONFIGURE and READ CONFIG (R58, R188, R189) -/

/-- The code of a highway's sync state (R190). -/
def State.syncCode (s : State) (h : Nat) : Byte :=
  match tget h s.sync with
  | none => 0
  | some y => match y.sync with
    | .seeking => 1
    | .locked => 2
    | .lost => 3

/-- The enables, bit h set for an enabled highway h. -/
def State.enableByte (s : State) : Byte :=
  BitVec.ofBool (s.enabled 7) ++ BitVec.ofBool (s.enabled 6) ++ BitVec.ofBool (s.enabled 5) ++ BitVec.ofBool (s.enabled 4) ++
  BitVec.ofBool (s.enabled 3) ++ BitVec.ofBool (s.enabled 2) ++ BitVec.ofBool (s.enabled 1) ++ BitVec.ofBool (s.enabled 0)

/-- The 15-byte body of READ CONFIG (R189, R190). A highway that CONFIGURE has enabled or disabled in this frame is reported as
newly set (the model's choice: log 24). -/
def configBody (s : State) : List Byte :=
  [s.enableByte, s.settings.routingByte, s.settings.modeByte, s.sched.code, nat8 s.stampUnit] ++
  (List.range nHighways).map s.syncCode ++ be16 s.stamp

/-- A highway given an enable: newly enabled it is SEEKING with counts 0, disabled it is OFF, otherwise it runs on (R58). Its state
changes within the command and governs the samples from the next frame; that the commands of this same frame see it as newly set is
the model's choice (log 24). -/
def enableHighway (enables : Byte) (s : State) (h : Nat) : State :=
  if enables.getLsbD h then
    if s.enabled h then s else s.setHighway h freshHighway
  else { s with sync := tdel h s.sync }

/-- A highway that holds a bound context is to be disabled (R58). -/
def disablesBound (enables : Byte) (s : State) : Bool :=
  (List.range nHighways).any fun h => s.enabled h && !enables.getLsbD h && !(s.boundOn h).isEmpty

/-- CONFIGURE: the checks of R188 in order, then every setting. -/
def configureCmd (enables routing modes sched unit : Byte) (s : State) : State × Reply :=
  match schedOfByte sched, unitOfByte unit with
  | some mode, some n =>
    if disablesBound enables s then (s, refuse .inUse)
    else
      let s1 := (List.range nHighways).foldl (enableHighway enables) s
      let s2 := { s1 with
        settings := settingsOf routing modes
        sched := mode
        prescale := if s1.stampUnit = n then s1.prescale else 0
        stampUnit := n }
      (s2, answer (configBody s2))
  | _, _ => (s, refuse .range)

/-- READ CONFIG (R189). -/
def readConfigCmd (s : State) : State × Reply := (s, answer (configBody s))

/-! ### RESET HIGHWAY and RESET STAMP (R59, R62) -/

/-- The effects of RESET HIGHWAY on highway `h` (R59). -/
def resetHighway (h : Nat) (s : State) : State :=
  let s1 := (s.boundOn h).foldl (fun t c => retire c t) s
  let s2 := s1.mapSlots fun p sl => if p / nSlots = h then { sl with hist := [] } else sl
  let s3 := if s2.enabled h then s2.setHighway h freshHighway else s2
  clearHw h s3

/-- RESET HIGHWAY (R59). -/
def resetHighwayCmd (hw : Byte) (s : State) : State × Reply :=
  if nHighways ≤ hw.toNat then (s, refuse .range)
  else
    let s1 := resetHighway hw.toNat s
    (s1, answer [nat8 (s.boundOn hw.toNat).length, s1.syncCode hw.toNat])

/-- RESET STAMP (R62). -/
def resetStampCmd (s : State) : State × Reply :=
  ({ s with stamp := 0, prescale := 0 }, answer (be16 0 ++ [nat8 s.stampUnit] ++ be32 s.blockCounter))

/-! ### FETCH NOTICE (R183) -/

/-- The bytes of a detail record: presence and class bits, from, to, stamp (R190). -/
def detailBytes (n : NoticeGroup) : List Byte :=
  let lost := BitVec.ofBool n.lost
  match n.detail with
  | none => [0#5 ++ lost ++ 0#2, 0, 0, 0, 0]
  | some (.main a b st) => [0#5 ++ lost ++ 0#1 ++ 1#1, a.code, b.code] ++ be16 st
  | some (.tone a b st) => [0#5 ++ lost ++ 1#1 ++ 1#1, a.code, b.code] ++ be16 st

/-- The body of a fetch of context `c` (R190). -/
def noticeBody (c : Nat) (r : Record) : List Byte :=
  [2] ++ nat16 c ++ [nat8 r.id.hw, nat8 r.id.slot] ++ be16 (r.notes.kinds.setWidth 16) ++ detailBytes r.notes

/-- A record's notices, fetched. -/
def clearNotes (r : Record) : Record := { r with notes := { r.notes with kinds := 0, detail := none, lost := false } }

/-- The lowest-numbered pending highway. -/
def State.pendingHighway (s : State) : Option Nat := (List.range nHighways).find? fun h => s.hwPending h ≠ 0

/-- The lowest-numbered pending context and its record. -/
def State.pendingContext (s : State) : Option (Nat × Record) := s.ctxs.find? fun e => e.2.notes.isPending

/-- FETCH NOTICE (R183). -/
def fetchNoticeCmd (s : State) : State × Reply :=
  match s.pendingHighway with
  | some h => (clearHw h s, answer [1, nat8 h, (s.hwPending h).setWidth 8])
  | none =>
    match s.pendingContext with
    | some (c, r) => (s.setRec c (clearNotes r), answer (noticeBody c r))
    | none => (s, answer [])

/-! ### Meanings -/

/-- CONFIGURE. -/
def execConfigure (enables routing modes sched unit : Byte) (s : State) : Host.Outcome State Fault Refusal :=
  .next (s.command 8 (configureCmd enables routing modes sched unit))
/-- READ CONFIG. -/
def execReadConfig (s : State) : Host.Outcome State Fault Refusal := .next (s.command 3 readConfigCmd)
/-- RESET HIGHWAY. -/
def execResetHighway (hw : Byte) (s : State) : Host.Outcome State Fault Refusal := .next (s.command 4 (resetHighwayCmd hw))
/-- RESET STAMP. -/
def execResetStamp (s : State) : Host.Outcome State Fault Refusal := .next (s.command 3 resetStampCmd)
/-- FETCH NOTICE. -/
def execFetchNotice (s : State) : Host.Outcome State Fault Refusal := .next (s.command 3 fetchNoticeCmd)

end Sys2Proof.Machine
end

