-- ==== Sys2Proof/Machine/Circuits.lean ====
section
/-! DEFINITION. The commands of 01 and 08 on circuit records: BIND, RETIRE, ENGAGE, HOLD, RESUME, RESTORE, SEARCH, QUERY. -/

namespace Sys2Proof.Machine

/-! ### BIND (R16 to R19) -/

/-- The segments that BIND is granted from free count `f`: how many, and whether the grant is short; none is NO_ROOM (R18). -/
def bindGrant (b : BindFields) (f : Nat) : Option (Nat × Bool) :=
  let n := min b.w0 b.span
  if n ≤ f then some (n, false) else if b.minSeg ≤ f then some (f, true) else none

/-- The base of the first window of `g` segments, pulled back into the span (R18). -/
def bindBase (b : BindFields) (g : Nat) : Nat := if b.b0 + g - 1 > b.span - 1 then b.span - g else b.b0

/-- A direction's level group after BIND (R12). -/
def bindLevel (f : LevelFields) : LevelDir := { gain := clampNat f.g0 f.gmin f.gmax, avg := 0, limit := 0 }

/-- The record that BIND fills context `c` with (R6 to R13, R19). -/
def bindRecord (c hw slot profile : Nat) (stamp : BitVec 16) (p : Profile) (segs : List Nat) (short observe : Bool) : Record :=
  { id := { hw := hw, slot := slot, profile := profile, bindStamp := stamp, span := p.bindTime.span }
    wins := { first := windowAt (bindBase p.bindTime segs.length) segs, second := none, shortened := short }
    main := if observe then .observe else .acquire
    conv := { run := 0, deadline := 0, expiry := 0, convergedOnce := false, observeConverged := false, echoFree := false }
    meas := { px := 0, es := 0, ee := 0, ef := 0 }
    gate := { state := .idle, far := 0, near := 0 }
    resid := { nf := 64, rise := 0, noise := BitVec.ofNat 16 (c + 1) }
    tone := { sub := .none, rx := emptyDir, tx := emptyDir, reversal := false, release := 0, blocks := 0 }
    div := soundGroup
    lev := { rx := bindLevel p.rx, tx := bindLevel p.tx }
    link := .none
    skip := 0
    notes := { kinds := 0, detail := none, lost := false, routing := p.routing }
    blk := { started := false, worked := true, model := [], sIn := [], resid := [], ref := [] } }

/-- The effects of a BIND that passes every check (R19). -/
def bindAccepted (hw slot flags : Byte) (p c g : Nat) (short : Bool) (s : State) : State × Reply :=
  let f := s.profile p
  let r := bindRecord c hw.toNat slot.toNat p s.stamp f (s.free.take g) short (flags.getLsbD 0)
  let s1 := { s.setRec c r with
    free := s.free.drop g
    pool := zeroWindows s.pool r.wins
    index := tset (position hw.toNat slot.toNat) c s.index }
  let s2 := useProfile p s1
  let s3 := if flags.getLsbD 1 || !f.bindTime.searchAtBind then s2 else requestSearch c false s2
  let link := match s3.rec? c with | none => SearchLink.none | some q => q.link
  (s3, { answer (nat16 c ++ [nat8 p, nat8 g, nat8 r.wins.first.base, nat8 r.wins.first.limit, nat8 r.id.span, r.main.code,
          link.code]) with shortened := short })

/-- BIND: the checks of R16 in order, then R19. -/
def bindCmd (hw slot profile flags : Byte) (s : State) : State × Reply :=
  if !keyInRange hw slot || !(profileInRange profile || isAuto profile) then (s, refuse .range)
  else if !s.enabled hw.toNat then (s, refuse .highwayOff)
  else if (tget (position hw.toNat slot.toNat) s.index).isSome then (s, refuse .bound)
  else
    match s.pickProfile hw slot profile with
    | none => (s, refuse .noProfile)
    | some p =>
      match s.vacant with
      | none => (s, refuse .noRoom)
      | some c =>
        match bindGrant (s.profile p).bindTime s.free.length with
        | none => (s, refuse .noRoom)
        | some (g, short) => bindAccepted hw slot flags p c g short s

/-! ### Commands on a bound record -/

/-- RETIRE (R20). -/
def retireCmd (hw slot : Byte) (s : State) : State × Reply :=
  keyed hw slot s fun c r => (retire c s, answer (nat16 c ++ [nat8 r.segCount]))

/-- ENGAGE: from OBSERVE to TRACK if observe-converged, otherwise to ACQUIRE (R22). -/
def engageCmd (hw slot : Byte) (s : State) : State × Reply :=
  keyed hw slot s fun c r =>
    if r.main = .observe then
      let new := if r.conv.observeConverged then MainState.track else .acquire
      (changeMain new c false s, answer [new.code])
    else (s, refuse .state)

/-- HOLD: to HELD, the quiet count set to 0 (R23). -/
def holdCmd (hw slot : Byte) (s : State) : State × Reply :=
  keyed hw slot s fun c r =>
    if r.main = .held then (s, refuse .state)
    else
      (changeMain .held c false (s.setRec c { r with div := { r.div with quiet := 0 } }), answer [MainState.held.code])

/-- RESUME: from HELD at a count below 256 to TRACK if converged-once, otherwise to ACQUIRE (R24). -/
def resumeCmd (hw slot : Byte) (s : State) : State × Reply :=
  keyed hw slot s fun c r =>
    if r.main = .held && r.div.count < 256 then
      let new := if r.conv.convergedOnce then MainState.track else .acquire
      (changeMain new c false s, answer [new.code])
    else (s, refuse .state)

/-- The convergence group cleared (R139). -/
def clearConv : ConvGroup :=
  { run := 0, deadline := 0, expiry := 0, convergedOnce := false, observeConverged := false, echoFree := false }

/-- The search link of a context. -/
def State.linkOf (s : State) (c : Nat) : SearchLink := match s.rec? c with | none => .none | some r => r.link

/-- RESTORE: from CUT or HELD to ACQUIRE, divergence and convergence groups cleared, coefficients zeroed, a search requested (R139). -/
def restoreCmd (hw slot : Byte) (s : State) : State × Reply :=
  keyed hw slot s fun c r =>
    if r.main.searchable then (s, refuse .state)
    else
      let s1 := (changeMain .acquire c false s).modRec c fun q => { q with div := soundGroup, conv := clearConv }
      let s2 := requestSearch c false { s1 with pool := zeroWindows s1.pool r.wins }
      (s2, answer [MainState.acquire.code, (s2.linkOf c).code])

/-- SEARCH: a request, or ALREADY (R25). -/
def searchCmd (hw slot : Byte) (s : State) : State × Reply :=
  keyed hw slot s fun c r =>
    if !r.main.searchable then (s, refuse .state)
    else if r.link = .none then
      let s1 := requestSearch c false s
      (s1, answer [(s1.linkOf c).code])
    else (s, { answer [r.link.code] with already := true })

/-- The record flags byte of QUERY (R190). -/
def recordFlags (r : Record) : Byte :=
  0#1 ++ BitVec.ofBool r.notes.lost ++ BitVec.ofBool r.notes.detail.isSome ++ BitVec.ofBool r.conv.echoFree ++
    BitVec.ofBool r.conv.observeConverged ++ BitVec.ofBool r.conv.convergedOnce ++ BitVec.ofBool r.wins.shortened ++
    BitVec.ofBool r.wins.second.isSome

/-- The 54-byte summary of a record (R26, R190). -/
def queryBody (c : Nat) (r : Record) : List Byte :=
  nat16 c ++ [r.main.code, nat8 r.id.profile] ++ be16 r.id.bindStamp ++ [nat8 r.id.span] ++
  [nat8 r.wins.first.base, nat8 r.wins.first.limit] ++
  (match r.wins.second with | none => [0, 0] | some v => [nat8 v.base, nat8 v.limit]) ++
  [recordFlags r, nat8 r.conv.run] ++ nat16 r.conv.deadline ++ [nat8 r.conv.expiry] ++
  nat32 r.meas.px ++ nat32 (sat32 r.meas.es) ++ nat32 (sat32 r.meas.ee) ++ nat32 (sat32 r.meas.ef) ++
  [r.gate.state.code, nat8 r.gate.far, nat8 r.gate.near] ++ nat16 r.resid.nf ++ [r.tone.sub.code] ++
  nat16 r.div.count ++ [r.div.band.code, nat8 r.div.quiet] ++ nat16 r.lev.rx.gain ++ nat16 r.lev.tx.gain ++
  nat16 r.lev.rx.avg ++ nat16 r.lev.tx.avg ++ [r.link.code, nat8 r.skip] ++ be16 (r.notes.kinds.setWidth 16)

/-- QUERY (R26). -/
def queryCmd (hw slot : Byte) (s : State) : State × Reply :=
  keyed hw slot s fun c r => (s, answer (queryBody c r))

/-! ### Meanings -/

/-- BIND. -/
def execBind (hw slot profile flags : Byte) (s : State) : Host.Outcome State Fault Refusal :=
  .next (s.command 7 (bindCmd hw slot profile flags))
/-- RETIRE. -/
def execRetire (hw slot : Byte) (s : State) : Host.Outcome State Fault Refusal := .next (s.command 5 (retireCmd hw slot))
/-- ENGAGE. -/
def execEngage (hw slot : Byte) (s : State) : Host.Outcome State Fault Refusal := .next (s.command 5 (engageCmd hw slot))
/-- HOLD. -/
def execHold (hw slot : Byte) (s : State) : Host.Outcome State Fault Refusal := .next (s.command 5 (holdCmd hw slot))
/-- RESUME. -/
def execResume (hw slot : Byte) (s : State) : Host.Outcome State Fault Refusal := .next (s.command 5 (resumeCmd hw slot))
/-- RESTORE. -/
def execRestore (hw slot : Byte) (s : State) : Host.Outcome State Fault Refusal := .next (s.command 5 (restoreCmd hw slot))
/-- SEARCH. -/
def execSearch (hw slot : Byte) (s : State) : Host.Outcome State Fault Refusal := .next (s.command 5 (searchCmd hw slot))
/-- QUERY. -/
def execQuery (hw slot : Byte) (s : State) : Host.Outcome State Fault Refusal := .next (s.command 5 (queryCmd hw slot))

end Sys2Proof.Machine
end

