-- ==== Sys2Proof/Machine/Profiles.lean ====
section
/-! DEFINITION. The commands of 11: SET PROFILE, READ PROFILE, AMEND PROFILE. -/

namespace Sys2Proof.Machine

/-! ### SET PROFILE (R169 to R171) -/

/-- Check 2 of R169: the selector key and mask are in range. -/
def selectorOk (f : ProfileMsg) : Bool :=
  f.selHw.toNat < 8 && f.hwMask.toNat < 8 && f.selSlot.toNat < 64 && f.slotMask.toNat < 64

/-- Check 4 of R169: Gmin is at most Gmax, after the gain clamp. -/
def limitsOk (l : LevelMsg) : Bool := clamp15 l.gmin ≤ clamp15 l.gmax

/-- SET PROFILE: the checks of R169 in order, then R171. -/
def setProfileCmd (profile : Byte) (f : ProfileMsg) (s : State) : State × Reply :=
  if !profileInRange profile || !selectorOk f then (s, refuse .range)
  else
    match nlpOfBits f.nlp, levelOfBits f.rxMode, levelOfBits f.txMode with
    | some nlp, some rx, some tx =>
      let old := s.profile profile.toNat
      let new := storedProfile f nlp rx tx old.inUse
      if !limitsOk f.rx || !limitsOk f.tx then (s, refuse .range)
      else if old.inUse ≠ 0 && new.bindTime ≠ old.bindTime then (s, refuse .inUse)
      else
        (s.setProfile profile.toNat new, { answer (profile :: nat16 old.inUse) with clamped := profileClamped f new })
    | _, _, _ => (s, refuse .range)

/-! ### READ PROFILE and AMEND PROFILE (R173, R174) -/

/-- READ PROFILE (R173). -/
def readProfileCmd (profile : Byte) (s : State) : State × Reply :=
  if !profileInRange profile then (s, refuse .range)
  else
    let p := s.profile profile.toNat
    (s, answer (profile :: profileBytes p.msg ++ nat16 p.inUse))

/-- AMEND PROFILE (R174). -/
def amendProfileCmd (hw slot profile : Byte) (s : State) : State × Reply :=
  if !profileInRange profile then (s, refuse .range)
  else
    keyed hw slot s fun c r =>
      let s1 :=
        if r.id.profile = profile.toNat then s
        else useProfile profile.toNat (unuseProfile r.id.profile
          (s.setRec c { r with id := { r.id with profile := profile.toNat } }))
      (s1, answer (profile :: nat16 (s1.profile profile.toNat).inUse))

/-! ### Meanings -/

/-- AMEND PROFILE. -/
def execAmendProfile (hw slot profile : Byte) (s : State) : Host.Outcome State Fault Refusal :=
  .next (s.command 6 (amendProfileCmd hw slot profile))
/-- SET PROFILE. -/
def execSetProfile (profile : Byte) (fields : ProfileMsg) (s : State) : Host.Outcome State Fault Refusal :=
  .next (s.command 51 (setProfileCmd profile fields))
/-- READ PROFILE. -/
def execReadProfile (profile : Byte) (s : State) : Host.Outcome State Fault Refusal :=
  .next (s.command 4 (readProfileCmd profile))

end Sys2Proof.Machine
end

