-- ==== Sys2Proof/Machine/Segments.lean ====
section
/-! DEFINITION. The commands of 02 on windows and coefficients: AMEND SPAN, AMEND WINDOWS, READ TAPS, WRITE TAPS, READ POOL. -/

namespace Sys2Proof.Machine

/-! ### AMEND SPAN (R39 to R41) -/

/-- A window clipped to positions 0 to `span - 1`: it keeps its base and loses the tail of its list (R40). -/
def clipWindow (span : Nat) (w : Window) : Window :=
  if w.limit ≤ span - 1 then w else { w with limit := span - 1, segs := w.segs.take (span - w.base) }

/-- The segments that the clip removes from a window. -/
def clippedSegs (span : Nat) (w : Window) : List Nat := if w.limit ≤ span - 1 then [] else w.segs.drop (span - w.base)

/-- The windows after a clip; a second window based at or beyond the span is removed (R40). -/
def clipWindows (span : Nat) (w : Windows) : Windows :=
  { w with first := clipWindow span w.first
           second := match w.second with
             | none => none
             | some v => if span ≤ v.base then none else some (clipWindow span v) }

/-- The segments that a clip returns, in the order of R29. -/
def clipReturns (span : Nat) (w : Windows) : List Nat :=
  clippedSegs span w.first ++
  match w.second with
  | none => []
  | some v => if span ≤ v.base then v.segs else clippedSegs span v

/-- The search after the clip: requested, left queued, or aborted and queued again, the freed unit taking the head (R41). -/
def respanSearch (c : Nat) (r : Record) (s : State) : State :=
  if !r.main.searchable then s
  else
    match r.link with
    | .none => requestSearch c false s
    | .queued => s
    | .searching u =>
      let s1 := setLink .queued c s
      freeUnit u false { s1 with queue := s1.queue ++ [c] }

/-- AMEND SPAN (R39). -/
def amendSpanCmd (hw slot span : Byte) (s : State) : State × Reply :=
  keyed hw slot s fun c r =>
    let n := min maxSpan span.toNat
    if n = 0 ∨ n ≤ r.wins.first.base then (s, refuse .range)
    else
      let back := clipReturns n r.wins
      let r' := { r with id := { r.id with span := n }, wins := clipWindows n r.wins }
      let s1 := respanSearch c r { s.setRec c r' with free := s.free ++ back }
      (s1, { answer (nat8 n :: windowSet r'.wins ++ [nat8 back.length, (s1.linkOf c).code]) with
               clamped := decide (maxSpan < span.toNat) })

/-! ### AMEND WINDOWS (R36, R37) -/

/-- The second window that AMEND WINDOWS asks for; a length of 0 asks for none. -/
def secondPlace (b2 l2 : Byte) : Option Place := if l2.toNat = 0 then none else some (b2.toNat, l2.toNat)

/-- The effects of an AMEND WINDOWS that passes every check (R37). -/
def amendWindowsAccepted (c : Nat) (r : Record) (first : Place) (second : Option Place) (s : State) : State :=
  let s1 := endSearch c false s
  relocationEffects c r.wins false (relocate c first second (allTaps s1.pool r.wins) s1)

/-- AMEND WINDOWS: the checks of R36 in order, then R37. -/
def amendWindowsCmd (hw slot b1 l1 b2 l2 : Byte) (s : State) : State × Reply :=
  keyed hw slot s fun c r =>
    let first : Place := (b1.toNat, l1.toNat)
    let second := secondPlace b2 l2
    if first.2 = 0 || r.id.span < first.1 + first.2 then (s, refuse .range)
    else if second.any fun w => r.id.span < w.1 + w.2 then (s, refuse .range)
    else if second.any fun w => w.1 ≤ first.1 + first.2 - 1 then (s, refuse .overlap)
    else if s.free.length + r.segCount < first.2 + (second.map (·.2)).getD 0 then (s, refuse .noRoom)
    else
      let s1 := amendWindowsAccepted c r first second s
      match s1.rec? c with
      | none => (s1, answer [])
      | some q => (s1, answer (windowSet q.wins ++ [nat8 q.segCount, q.main.code] ++ nat16 s1.free.length))

/-! ### READ TAPS, WRITE TAPS, READ POOL (R42 to R44) -/

/-- READ TAPS (R42). -/
def readTapsCmd (hw slot win pos : Byte) (s : State) : State × Reply :=
  keyed hw slot s fun _ r =>
    match tapSegment r.wins win pos with
    | none => (s, refuse .range)
    | some (g, at') => (s, answer (nat16 g ++ nat16 (segTaps * at') ++ (segRead s.pool g).flatMap be16))

/-- WRITE TAPS (R43). A list of other than 16 values, which no message holds, is read as 16 with zeros for those missing (log 10). -/
def writeTapsCmd (hw slot win pos : Byte) (coeffs : List Coeff) (s : State) : State × Reply :=
  keyed hw slot s fun _ r =>
    if r.main ≠ .held then (s, refuse .state)
    else
      match tapSegment r.wins win pos with
      | none => (s, refuse .range)
      | some (g, _) => ({ s with pool := segWrite s.pool g (segSlice coeffs 0) }, answer (nat16 g))

/-- The set of searching units, bit u for unit u. -/
def searchingSet (units : List (Nat × SearchUnit)) : Byte :=
  0#4 ++ BitVec.ofBool (tget 3 units).isSome ++ BitVec.ofBool (tget 2 units).isSome ++ BitVec.ofBool (tget 1 units).isSome ++
    BitVec.ofBool (tget 0 units).isSome

/-- READ POOL (R44). -/
def readPoolCmd (s : State) : State × Reply :=
  (s, answer (nat16 s.free.length ++ nat16 s.ctxs.length ++ nat16 s.queue.length ++ [searchingSet s.units]))

/-! ### Meanings -/

/-- AMEND SPAN. -/
def execAmendSpan (hw slot span : Byte) (s : State) : Host.Outcome State Fault Refusal :=
  .next (s.command 6 (amendSpanCmd hw slot span))
/-- AMEND WINDOWS. -/
def execAmendWindows (hw slot b1 l1 b2 l2 : Byte) (s : State) : Host.Outcome State Fault Refusal :=
  .next (s.command 9 (amendWindowsCmd hw slot b1 l1 b2 l2))
/-- READ TAPS. -/
def execReadTaps (hw slot win pos : Byte) (s : State) : Host.Outcome State Fault Refusal :=
  .next (s.command 7 (readTapsCmd hw slot win pos))
/-- WRITE TAPS. -/
def execWriteTaps (hw slot win pos : Byte) (coeffs : List Coeff) (s : State) : Host.Outcome State Fault Refusal :=
  .next (s.command 39 (writeTapsCmd hw slot win pos coeffs))
/-- READ POOL. -/
def execReadPool (s : State) : Host.Outcome State Fault Refusal := .next (s.command 3 readPoolCmd)

end Sys2Proof.Machine
end

