-- ==== Sys2Proof/Machine/Link.lean ====
section
/-! DEFINITION. Transactions of the control link: READ and COMMAND_MESSAGE (R175 to R178). -/

namespace Sys2Proof.Machine

/-! ### READ (R177) -/

/-- The response a read sends: the buffered one, or that of an empty buffer. -/
def State.readout (s : State) : List Byte := (s.resp.getD emptyResponse).bytes

/-- The first `n` of the bytes, filled up with the 0xFF that the part sends where it has no response byte (R175). -/
def sendBytes (n : Nat) (l : List Byte) : List Byte := l.take n ++ List.replicate (n - l.length) 0xFF#8

/-- A read transaction of `n` bytes after its first: the response goes out from its status byte, and is consumed when all of it
was clocked out (R177). -/
def readLink (n : Nat) (s : State) : State :=
  { s with
    linkOut := 0xFF#8 :: sendBytes n s.readout
    resp := if s.readout.length ≤ n then none else s.resp }

/-- READ. Bits that make up no whole byte are not counted (R175). -/
def execRead (n _bits : Nat) (s : State) : Host.Outcome State Fault Refusal := .next (readLink n s)

/-! ### COMMAND_MESSAGE (R176) -/

/-- What a link command does; none for a step that is no command of the link. -/
def linkEffect : Instr → Option (State → State × Reply)
  | .powerOn => none
  | .frame _ _ _ => none
  | .lock _ => none
  | .syncLost _ => none
  | .syncBack _ => none
  | .blockBoundary => none
  | .convergence _ => none
  | .expiry _ => none
  | .cut _ => none
  | .recovery _ => none
  | .level _ _ => none
  | .noiseFloorRise _ => none
  | .stampAdvance => none
  | .windowEnd _ => none
  | .toneEntry _ => none
  | .release _ => none
  | .searchCompletion _ => none
  | .searchFailure _ => none
  | .read _ _ => none
  | .commandMessage _ _ => none
  | .bind h s p f => some (bindCmd h s p f)
  | .retire h s => some (retireCmd h s)
  | .engage h s => some (engageCmd h s)
  | .hold h s => some (holdCmd h s)
  | .resume h s => some (resumeCmd h s)
  | .restore h s => some (restoreCmd h s)
  | .search h s => some (searchCmd h s)
  | .query h s => some (queryCmd h s)
  | .amendSpan h s n => some (amendSpanCmd h s n)
  | .amendWindows h s b1 l1 b2 l2 => some (amendWindowsCmd h s b1 l1 b2 l2)
  | .amendProfile h s p => some (amendProfileCmd h s p)
  | .readTaps h s w i => some (readTapsCmd h s w i)
  | .writeTaps h s w i cs => some (writeTapsCmd h s w i cs)
  | .readPool => some readPoolCmd
  | .setProfile p f => some (setProfileCmd p f)
  | .readProfile p => some (readProfileCmd p)
  | .configure e r m d u => some (configureCmd e r m d u)
  | .readConfig => some readConfigCmd
  | .resetHighway h => some (resetHighwayCmd h)
  | .resetStamp => some resetStampCmd
  | .fetchNotice => some fetchNoticeCmd

/-- The refusal code of a failed link check. -/
def linkStatus : LinkError → Status
  | .check => .check
  | .framing => .framing
  | .length => .length
  | .unknown => .unknown

/-- A command message is taken: refused by the link's checks with no effect but its response, or handed to its command (R176). -/
def messageTaken (bytes : List Byte) (s : State) : State :=
  match decodeMessage bytes with
  | .error e => { s.place (refuse (linkStatus e)) with linkOut := idleBytes bytes.length }
  | .ok i =>
    match linkEffect i with
    | none => { s.place (refuse .unknown) with linkOut := idleBytes bytes.length }
    | some f => s.command bytes.length f

/-- A transaction: none of no whole byte (R175); a read when the first byte is 0x80; otherwise a command message. -/
def transaction (bytes : List Byte) (s : State) : State :=
  match bytes with
  | [] => s
  | b :: t => if b = 0x80#8 then readLink t.length s else messageTaken (b :: t) s

/-- COMMAND_MESSAGE. Bits that make up no whole byte are not counted (R175). -/
def execCommandMessage (bytes : List Byte) (_bits : Nat) (s : State) : Host.Outcome State Fault Refusal :=
  .next (transaction bytes s)

end Sys2Proof.Machine
end

