-- ==== Sys2Proof/Machine/Dispatch.lean ====
section
/-! DEFINITION. What each step does: one arm for each row of spec/opcode_table.json, in the table's order. -/

namespace Sys2Proof.Machine

/-- The effect of a step on everything but the queue. -/
def exec (i : Instr) (s : State) : Host.Outcome State Fault Refusal :=
  match i with
  | .powerOn => Sys2Proof.Machine.execPowerOn s
  | .frame rIn sIn marks => Sys2Proof.Machine.execFrame rIn sIn marks s
  | .lock h => Sys2Proof.Machine.execLock h s
  | .syncLost h => Sys2Proof.Machine.execSyncLost h s
  | .syncBack h => Sys2Proof.Machine.execSyncBack h s
  | .blockBoundary => Sys2Proof.Machine.execBlockBoundary s
  | .convergence c => Sys2Proof.Machine.execConvergence c s
  | .expiry c => Sys2Proof.Machine.execExpiry c s
  | .cut c => Sys2Proof.Machine.execCut c s
  | .recovery c => Sys2Proof.Machine.execRecovery c s
  | .level c d => Sys2Proof.Machine.execLevel c d s
  | .noiseFloorRise c => Sys2Proof.Machine.execNoiseFloorRise c s
  | .stampAdvance => Sys2Proof.Machine.execStampAdvance s
  | .windowEnd c => Sys2Proof.Machine.execWindowEnd c s
  | .toneEntry c => Sys2Proof.Machine.execToneEntry c s
  | .release c => Sys2Proof.Machine.execRelease c s
  | .searchCompletion u => Sys2Proof.Machine.execSearchCompletion u s
  | .searchFailure u => Sys2Proof.Machine.execSearchFailure u s
  | .read n bits => Sys2Proof.Machine.execRead n bits s
  | .commandMessage bytes bits => Sys2Proof.Machine.execCommandMessage bytes bits s
  | .bind hw slot profile flags => Sys2Proof.Machine.execBind hw slot profile flags s
  | .retire hw slot => Sys2Proof.Machine.execRetire hw slot s
  | .engage hw slot => Sys2Proof.Machine.execEngage hw slot s
  | .hold hw slot => Sys2Proof.Machine.execHold hw slot s
  | .resume hw slot => Sys2Proof.Machine.execResume hw slot s
  | .restore hw slot => Sys2Proof.Machine.execRestore hw slot s
  | .search hw slot => Sys2Proof.Machine.execSearch hw slot s
  | .query hw slot => Sys2Proof.Machine.execQuery hw slot s
  | .amendSpan hw slot span => Sys2Proof.Machine.execAmendSpan hw slot span s
  | .amendWindows hw slot b1 l1 b2 l2 => Sys2Proof.Machine.execAmendWindows hw slot b1 l1 b2 l2 s
  | .amendProfile hw slot profile => Sys2Proof.Machine.execAmendProfile hw slot profile s
  | .readTaps hw slot win pos => Sys2Proof.Machine.execReadTaps hw slot win pos s
  | .writeTaps hw slot win pos coeffs => Sys2Proof.Machine.execWriteTaps hw slot win pos coeffs s
  | .readPool => Sys2Proof.Machine.execReadPool s
  | .setProfile profile fields => Sys2Proof.Machine.execSetProfile profile fields s
  | .readProfile profile => Sys2Proof.Machine.execReadProfile profile s
  | .configure enables routing modes sched unit => Sys2Proof.Machine.execConfigure enables routing modes sched unit s
  | .readConfig => Sys2Proof.Machine.execReadConfig s
  | .resetHighway hw => Sys2Proof.Machine.execResetHighway hw s
  | .resetStamp => Sys2Proof.Machine.execResetStamp s
  | .fetchNotice => Sys2Proof.Machine.execFetchNotice s

end Sys2Proof.Machine
end

