-- ==== Sys2Proof/Safety.lean ====
section
/-! DEFINITION. What the spec says holds of the part at every moment, each as a test of a state. Every one holds after power-on, and
every step keeps it (some of them given others: Certificates/Slice0/Obligations.lean states which). -/

namespace Sys2Proof.Machine

/-- Every table's numbers rise, so that a number has one entry. -/
def tablesRise (s : State) : Bool :=
  rising s.ctxs && rising s.index && rising s.sync && rising s.hwKinds && rising s.units && rising s.profiles

/-! ### Circuit index (R3) -/

/-- The circuit index maps a key to a context exactly when that context is bound and holds that key; keys and contexts are in
range (R2, R3). -/
def indexSafe (s : State) : Bool :=
  rising s.ctxs && rising s.index &&
  (s.ctxs.all fun e => e.1 < nContexts && e.2.id.hw < nHighways && e.2.id.slot < nSlots &&
    tget (position e.2.id.hw e.2.id.slot) s.index == some e.1) &&
  (s.index.all fun e => (s.rec? e.2).any fun r => position r.id.hw r.id.slot == e.1)

/-! ### Segment pool (R27) -/

/-- The segments of all bound contexts, in context order. -/
def State.heldSegs (s : State) : List Nat := s.ctxs.flatMap fun e => e.2.wins.segs

/-- The free list and the windows together hold each of the 6144 segments exactly once (R27). -/
def segmentsSafe (s : State) : Prop :=
  rising s.ctxs = true ∧ (s.free ++ s.heldSegs).Perm (List.range nSegments)

/-! ### Windows (R6, R30) -/

/-- A window lies in positions `start` to `span - 1` and has one segment a position (R7, R30). -/
def windowFits (start span : Nat) (w : Window) : Bool :=
  start ≤ w.base && w.base ≤ w.limit && w.limit + 1 ≤ span && w.segs.length == w.limit - w.base + 1

/-- A record's windows, by R30. -/
def windowsFit (span : Nat) (w : Windows) : Bool :=
  windowFits 0 span w.first && (match w.second with | none => true | some v => windowFits (w.first.limit + 1) span v)

/-- Every bound record's span is 1..64 and its windows lie in it (R30). -/
def windowsSafe (s : State) : Bool := s.ctxs.all fun e => 1 ≤ e.2.id.span && e.2.id.span ≤ maxSpan && windowsFit e.2.id.span e.2.wins

/-! ### Search queue and units (R112) -/

/-- The search link of a record agrees with the queue and the units (R112). -/
def linkAgrees (s : State) (c : Nat) (r : Record) : Bool :=
  match r.link with
  | .none => true
  | .queued => r.main.searchable && s.queue.contains c
  | .searching u => r.main.searchable && (tget u s.units).any fun un => un.ctx == c

/-- Queue, units and links agree: each queued context is QUEUED, in the queue once; each unit's context is SEARCHING with that unit,
over the record's span, its filter 0 beyond it; and with an entry in the queue all four units are searching (R112, R114). -/
def searchSafe (s : State) : Bool :=
  rising s.ctxs && rising s.units && s.queue.Nodup &&
  (s.ctxs.all fun e => linkAgrees s e.1 e.2) &&
  (s.queue.all fun c => (s.rec? c).any fun r => r.link == .queued) &&
  (s.units.all fun e => e.1 < nUnits && e.2.shadow.length == nTaps &&
    (e.2.shadow.drop (segTaps * e.2.span)).all (fun k => k == 0) &&
    (s.rec? e.2.ctx).any fun r => r.link == .searching e.1 && r.id.span == e.2.span) &&
  (s.queue.isEmpty || s.units.length == nUnits)

/-! ### Divergence (R129) -/

/-- A divergence group and main state allowed by R129. -/
def divFits (r : Record) : Bool :=
  r.div.count ≤ 256 && r.div.band == bandOf r.div.count && r.div.quiet ≤ 128 &&
  (r.div.count != 256 || r.main == .cut || r.main == .held)

/-- Every record's divergence group is as R129 says. -/
def divSafe (s : State) : Bool := s.ctxs.all fun e => divFits e.2

/-! ### Ranges of a record's fields (R8 to R13) -/

/-- A direction of the tone group in range (R11). -/
def toneFits (d : ToneDir) : Bool := d.run ≤ 30 && d.gap ≤ 2

/-- The counts, energies and averages of a record that R8 to R13 bound, the gate state being the one of its hangovers (R100). -/
def rangesFit (r : Record) : Bool :=
  r.conv.run ≤ 32 && r.conv.deadline ≤ 1409 && r.conv.expiry ≤ 2 &&
  r.meas.px ≤ 2 ^ 30 && r.meas.es ≤ 2 ^ 33 && r.meas.ee ≤ 2 ^ 33 && r.meas.ef ≤ 2 ^ 33 &&
  r.gate.far ≤ 8 && r.gate.near ≤ 30 && r.gate.state == gateOf r.gate.far r.gate.near &&
  r.resid.nf ≤ 32767 && r.resid.rise ≤ 15 && r.resid.noise != 0 &&
  toneFits r.tone.rx && toneFits r.tone.tx && r.tone.release ≤ 25 && r.tone.blocks ≤ 9 &&
  r.lev.rx.avg ≤ 32768 && r.lev.tx.avg ≤ 32768 && r.skip ≤ 255

/-- A limit run is below 1000, or stands at 1000 with its LEVEL due (R12, R162; log 4). -/
def limitFits (s : State) (c : Nat) (d : Dir) (l : LevelDir) : Bool :=
  l.limit ≤ 999 || (l.limit == 1000 && s.due.contains (.level c d))

/-- Every bound record's fields are in range. -/
def rangesSafe (s : State) : Bool :=
  s.ctxs.all fun e => e.1 < nContexts && rangesFit e.2 && limitFits s e.1 .rx e.2.lev.rx && limitFits s e.1 .tx e.2.lev.tx

/-! ### Profiles (R165 to R167) -/

/-- The level fields of a direction in range (R167). -/
def levelFits (l : LevelFields) : Bool := l.target ≤ 32767 && l.gmax ≤ 32767 && l.gmin ≤ l.g0 && l.g0 ≤ l.gmax

/-- A profile's fields in range (R166, R167). -/
def profileFits (p : Profile) : Bool :=
  p.selHw.toNat < 8 && p.hwMask.toNat < 8 && p.selSlot.toNat < 64 && p.slotMask.toNat < 64 &&
  1 ≤ p.bindTime.span && p.bindTime.span ≤ 64 && p.bindTime.b0 ≤ 63 && 1 ≤ p.bindTime.w0 && p.bindTime.w0 ≤ 64 &&
  1 ≤ p.bindTime.w1 && p.bindTime.w1 ≤ 64 && 1 ≤ p.bindTime.minSeg && p.bindTime.minSeg ≤ 64 &&
  1 ≤ p.muAcq && p.muAcq ≤ 255 && 1 ≤ p.muTrack && p.muTrack ≤ 255 && 1 ≤ p.delta && p.delta ≤ 16777216 &&
  p.tFar ≤ 32767 && p.tNear ≤ 32767 && levelFits p.rx && levelFits p.tx && p.wMin ≤ 4294967295 && p.wRel ≤ 4294967295

/-- The sixteen profiles are there, each in range (R165 to R167). -/
def profilesSafe (s : State) : Bool :=
  s.profiles.map (·.1) == List.range nProfiles && s.profiles.all fun e => profileFits e.2

/-- Every record names one of the sixteen profiles, and each profile's in-use count is the number of records that do (R165). -/
def usesSafe (s : State) : Bool :=
  rising s.ctxs && (s.ctxs.all fun e => e.2.id.profile < nProfiles) &&
  (List.range nProfiles).all fun p => (s.profile p).inUse == s.ctxs.countP fun e => e.2.id.profile == p

/-- Every gain is at most 32767 (R12, R155). -/
def gainsSafe (s : State) : Bool := s.ctxs.all fun e => e.2.lev.rx.gain ≤ 32767 && e.2.lev.tx.gain ≤ 32767

/-! ### Highways (R52, R53, R58) -/

/-- A highway's counts, by its state (R52, R53). -/
def highwayFits (y : Highway) : Bool :=
  y.good ≤ 8 && y.bad ≤ 2 && (y.good == 0 || y.bad == 0) &&
  match y.sync with
  | .seeking => y.good ≤ 7
  | .lost => y.good ≤ 7
  | .locked => y.bad ≤ 1

/-- The enabled highways are among the eight, their counts are as R52 and R53 say, and a bound context lies on an enabled one
(R58). -/
def syncSafe (s : State) : Bool :=
  rising s.sync && (s.sync.all fun e => e.1 < nHighways && highwayFits e.2) && s.ctxs.all fun e => s.enabled e.2.id.hw

/-! ### Time, histories, alert lines -/

/-- The stamp unit is one of four and the prescale count below it; the rotation pointer is a context number; at most eight frames of
a block have been taken (R47, R61, R86). -/
def timeSafe (s : State) : Bool :=
  [1, 2, 4, 8].contains s.stampUnit && s.prescale < s.stampUnit && s.pointer < nContexts && s.phase ≤ blockFrames

/-- There are 512 slot positions, and no history is longer than what the model keeps or ends in a zero (R46, R50). -/
def slotsSafe (s : State) : Bool :=
  s.slots.length == nPositions && s.slots.all fun sl => sl.hist.length ≤ historyDepth && sl.hist.getLast? != some 0

/-- Owed counts are in range; a LATCHED line owes nothing; under merge ALERT_B is released and owes nothing (R185, R187). -/
def linesSafe (s : State) : Bool :=
  s.lineA.owed ≤ 255 && s.lineB.owed ≤ 255 && (s.inForce.modeA == .pulsed || s.lineA.owed == 0) &&
  (s.inForce.modeB == .pulsed || s.lineB.owed == 0) && (!s.inForce.merge || (s.lineB.owed == 0 && !s.lineB.asserted))

/-- In a block whose first `phase` frames have been taken, a record or unit that has worked in all of them holds one sample or residual
for each; events of a boundary are due, and searches at their end wait, only before the next frame (R66, R116, R119; log 4, 7). -/
def blockSafe (s : State) : Bool :=
  (s.due.isEmpty || s.phase == 0) &&
  (s.ctxs.all fun e => !(e.2.blk.started && e.2.blk.worked) ||
    (e.2.blk.sIn.length == s.phase && e.2.blk.resid.length == s.phase && e.2.blk.ref.length == s.phase)) &&
  (s.units.all fun e => (s.phase == 0 || (e.2.qual < 64 && e.2.blocks < 512)) &&
    (!e.2.begun || (s.rec? e.2.ctx).any fun r => !(r.blk.started && r.blk.worked) || e.2.resid.length == s.phase))

/-- The part is as the spec says it is at every moment. -/
def safe (s : State) : Prop :=
  tablesRise s = true ∧ indexSafe s = true ∧ segmentsSafe s ∧ poolWf s.pool = true ∧ windowsSafe s = true ∧ searchSafe s = true ∧
  divSafe s = true ∧ rangesSafe s = true ∧ profilesSafe s = true ∧ usesSafe s = true ∧ gainsSafe s = true ∧ syncSafe s = true ∧
  timeSafe s = true ∧ slotsSafe s = true ∧ linesSafe s = true ∧ blockSafe s = true

/-! ### Words for what a step does -/

/-- The step taken on `s` answers `t`. -/
def takes (i : Instr) (s t : State) : Prop := exec i s = .next t

/-- The steps, taken one after another on `s`, lead to `t`. -/
def runs : List Instr → State → State → Prop
  | [], s, t => t = s
  | i :: l, s, t => ∃ u, takes i s u ∧ runs l u t

/-- The row of a due event. -/
def rowOf : DueEvent → Instr
  | .convergence c => .convergence c
  | .expiry c => .expiry c
  | .cut c => .cut c
  | .recovery c => .recovery c
  | .level c d => .level c d
  | .noiseFloorRise c => .noiseFloorRise c
  | .stampAdvance => .stampAdvance
  | .windowEnd c => .windowEnd c
  | .toneEntry c => .toneEntry c
  | .release c => .release c

/-- The key (hw, slot) is in range and `s` holds it, by the circuit index, as the record `r` of context `c` (R3, R4). -/
def holdsKey (s : State) (hw slot : Byte) (c : Nat) (r : Record) : Prop :=
  hw.toNat < 8 ∧ slot.toNat < 64 ∧ tget (64 * hw.toNat + slot.toNat) s.index = some c ∧ s.rec? c = some r

/-- `t` with an accepted command's response in the buffer, OVERRUN if one was still there, and the 0xFF bytes that the part sent
during its message of `n` bytes (R175, R177, R178). -/
def responds (n : Nat) (clamped shortened already : Bool) (body : List Byte) (t : State) : State :=
  { t with
    resp := some { status := .ok, overrun := t.resp.isSome, clamped := clamped, shortened := shortened, already := already
                   body := body }
    linkOut := List.replicate n 0xFF#8 }

/-- `t` with a refusal in the buffer: body length 0 and no flag but OVERRUN (R178). -/
def refuses (n : Nat) (st : Status) (t : State) : State :=
  { t with
    resp := some { status := st, overrun := t.resp.isSome, clamped := false, shortened := false, already := false, body := [] }
    linkOut := List.replicate n 0xFF#8 }

/-- A unit that starts a search of `c` over `span`: a zero shadow filter and counts of 0 (R114). -/
def freshUnit (c span : Nat) (begun : Bool) : SearchUnit :=
  { ctx := c, span := span, shadow := List.replicate 1024 0, qual := 0, blocks := 0, begun := begun, resid := [] }

/-- From `s` to `t` a search of context `c`, whose record in `s` is `r`, is requested by the table of R113: nothing where its link is
not NONE; otherwise the lowest-numbered IDLE unit starts, or with all four searching it joins the tail of the queue. -/
def requested (c : Nat) (r : Record) (begun : Bool) (s t : State) : Prop :=
  (r.link ≠ .none → t = s) ∧
  (r.link = .none →
    (∀ u, u < 4 → tget u s.units = none → (∀ v, v < u → tget v s.units ≠ none) →
      t = { s with
        ctxs := tset c { r with link := .searching u } s.ctxs
        queue := s.queue.filter fun j => j ≠ c
        units := tset u (freshUnit c r.id.span begun) s.units }) ∧
    ((∀ u, u < 4 → tget u s.units ≠ none) →
      t = { s with ctxs := tset c { r with link := .queued } s.ctxs, queue := s.queue ++ [c] }))

/-- From `s` to `t` the search of context `c`, whose link was `l`, is ended (R115, R126): a queued request leaves the queue, the rest
keeping its order; the unit of a running search takes the head of the queue, or becomes IDLE. No other record changes but in the
link of the one whose search so starts. -/
def searchEnded (c : Nat) (l : SearchLink) (begun : Bool) (s t : State) : Prop :=
  match l with
  | .none => t.queue = s.queue ∧ t.units = s.units ∧ ∀ d, d ≠ c → t.rec? d = s.rec? d
  | .queued => t.queue = (s.queue.filter fun j => j ≠ c) ∧ t.units = s.units ∧ ∀ d, d ≠ c → t.rec? d = s.rec? d
  | .searching u =>
    match s.queue with
    | [] => t.queue = [] ∧ t.units = tdel u s.units ∧ ∀ d, d ≠ c → t.rec? d = s.rec? d
    | q :: rest =>
      t.queue = rest ∧
      (∃ rq, s.rec? q = some rq ∧ t.rec? q = some { rq with link := .searching u } ∧
        t.units = tset u (freshUnit q rq.id.span begun) (tdel u s.units)) ∧
      ∀ d, d ≠ c → d ≠ q → t.rec? d = s.rec? d

/-- The pulses of a raised kind: from line to line, one more owed on each PULSED line of its effective routing, by the modes and the
merge in force, if the kind is newly set; none otherwise (R180, R187). -/
def pulses (fresh : Bool) (route : Route) (s t : State) : Prop :=
  t.lineA = (if fresh = true ∧ s.inForce.modeA = .pulsed ∧ (route = .a ∨ route = .both ∨ (s.inForce.merge = true ∧ route = .b))
    then { s.lineA with owed := min 255 (s.lineA.owed + 1) } else s.lineA) ∧
  t.lineB = (if fresh = true ∧ s.inForce.modeB = .pulsed ∧ s.inForce.merge = false ∧ (route = .b ∨ route = .both)
    then { s.lineB with owed := min 255 (s.lineB.owed + 1) } else s.lineB)

/-- The notices of a record after a kind is raised (R180). -/
def withKind (k : Kind) (n : NoticeGroup) : NoticeGroup := { n with kinds := n.kinds ||| (1#9 <<< k.bit) }

/-- The notices of a record after a detail record is written under a policy: stored where none is pending; else under OVERWRITE it
replaces the pending one, under KEEP it is dropped, and in both the lost flag is set (R181). -/
def withDetail (policy : DetailPolicy) (d : Detail) (n : NoticeGroup) : NoticeGroup :=
  if n.detail = none then { n with detail := some d }
  else if policy = .overwrite then { n with detail := some d, lost := true }
  else { n with lost := true }

/-- `t` differs from `s` in the records, the search queue and units, the alert lines and the list of due events alone. -/
def onlyRecords (s t : State) : Prop :=
  { t with ctxs := s.ctxs, queue := s.queue, units := s.units, lineA := s.lineA, lineB := s.lineB, due := s.due } = s

/-- No record but that of context `c` differs between `s` and `t`. -/
def othersKept (c : Nat) (s t : State) : Prop := ∀ d, d ≠ c → t.rec? d = s.rec? d

/-- The state in which a FRAME's samples are taken: the frame before is ended, this one begun (R47, R49, R63). -/
def atFrame (s : State) : State := openFrame (closeFrame s)

/-- The body lengths of the commands, by code (R190). -/
def bodyLengths : List (Nat × Nat) :=
  [(0x01, 4), (0x02, 2), (0x03, 2), (0x04, 2), (0x05, 2), (0x06, 2), (0x07, 2), (0x08, 2), (0x10, 3), (0x11, 6), (0x12, 3),
   (0x13, 4), (0x14, 36), (0x15, 0), (0x20, 48), (0x21, 1), (0x30, 5), (0x31, 0), (0x32, 1), (0x33, 0), (0x34, 0)]

/-- The coefficient that a record's windows give tap `k`: 0 where no window covers it (R30, R33). -/
def tapCoeff (pool : List (Nat × List Coeff)) (w : Windows) (k : Nat) : Coeff := (positionCoeffs pool w (k / 16)).getD (k % 16) 0

/-- From `s` to `t` a record's windows `old` are relocated to the desired `first` and `second` (base and length), by R28, R29, R32
and the table of R34: its segments go to the tail of the free list, `v` takes as many from the head as are wanted and free, the
second window being dropped first; the segment that serves tap `k` holds `source k` for it, and no other segment changes. -/
def relocated (old : Windows) (first : Place) (second : Option Place) (source : Nat → Coeff) (s t : State) (v : Windows) : Prop :=
  let free := s.free ++ old.segs
  let total := first.2 + (match second with | none => 0 | some w => w.2)
  let n := min first.2 free.length
  v.first = { base := first.1, limit := first.1 + n - 1, segs := free.take n } ∧
  v.second = (match second with
    | none => none
    | some w => if total ≤ free.length then some { base := w.1, limit := w.1 + w.2 - 1, segs := (free.drop n).take w.2 } else none) ∧
  v.shortened = decide (free.length < total) ∧
  t.free = free.drop v.segs.length ∧
  (∀ g, g ∉ v.segs → segRead t.pool g = segRead s.pool g) ∧
  ∀ x i g j, x ∈ v.list → x.segs[i]? = some g → j < 16 → (segRead t.pool g).getD j 0 = source (16 * (x.base + i) + j)

/-- The placements differ: another base or limit, or a second window in one of them alone (R37, R124). -/
def movedFrom (old new : Windows) : Prop :=
  new.list.map (fun w => (w.base, w.limit)) ≠ old.list.map (fun w => (w.base, w.limit))

/-- A 16-bit number as two bytes, the most significant first (R190). -/
def twoBytes (n : Nat) : List Byte := [BitVec.ofNat 8 (n / 256), BitVec.ofNat 8 n]

/-- A 32-bit number as four bytes, the most significant first (R190). -/
def fourBytes (n : Nat) : List Byte :=
  [BitVec.ofNat 8 (n / 16777216), BitVec.ofNat 8 (n / 65536), BitVec.ofNat 8 (n / 256), BitVec.ofNat 8 n]

/-- A command message: code, body length, body and the check byte that makes its bytes sum to 255 modulo 256 (R176). -/
def message (code : Nat) (body : List Byte) : List Byte :=
  [BitVec.ofNat 8 code, BitVec.ofNat 8 body.length] ++ body ++
    [BitVec.ofInt 8 (255 - (code + body.length + (body.map fun b => b.toNat).sum : Nat))]

/-- The 48-byte body of SET PROFILE by the table of R190, ignored bits 0. -/
def profileLayout (p : Byte) (f : ProfileMsg) : List Byte :=
  let bit := fun (b : Bool) (i : Nat) => if b then 2 ^ i else 0
  let level := fun l : LevelMsg =>
    twoBytes l.target.toNat ++ twoBytes l.gmin.toNat ++ twoBytes l.gmax.toNat ++ twoBytes l.g0.toNat
  [p, BitVec.ofNat 8 (f.selHw.toNat + 16 * f.hwMask.toNat), f.selSlot, f.slotMask,
    BitVec.ofNat 8 (bit f.matchEnable 0 + bit f.twoWindows 1 + bit f.searchAtBind 2 + bit f.toneEnable 3),
    f.span, f.b0, f.w0, f.w1, f.minSeg, f.muAcq, f.muTrack] ++
  fourBytes f.delta.toNat ++ twoBytes f.tFar.toNat ++ twoBytes f.tNear.toNat ++
  [BitVec.ofNat 8 (f.nlp.toNat + 4 * f.rxMode.toNat + 16 * f.txMode.toNat + 64 * f.recovery.toNat)] ++
  level f.rx ++ level f.tx ++ fourBytes f.wMin.toNat ++ fourBytes f.wRel.toNat ++
  BitVec.ofNat 8 (f.routing.toNat / 65536) :: twoBytes f.routing.toNat

/-- The 15 bytes in which CONFIGURE and READ CONFIG report a state (R189, R190). -/
def configReport (s : State) : List Byte :=
  let bit := fun (b : Bool) (i : Nat) => if b then 2 ^ i else 0
  let route := fun r : Route => match r with | .none => 0 | .a => 1 | .b => 2 | .both => 3
  [BitVec.ofNat 8 ((List.range 8).map fun h => bit (s.enabled h) h).sum,
    BitVec.ofNat 8 (route s.settings.routeLost + 4 * route s.settings.routeBack),
    BitVec.ofNat 8 (bit (s.settings.modeA = .pulsed) 0 + bit (s.settings.modeB = .pulsed) 1 + bit s.settings.merge 2 +
      bit (s.settings.policy = .keep) 3),
    (match s.sched with | .urgency => 0#8 | .index => 1#8), BitVec.ofNat 8 s.stampUnit] ++
  ((List.range 8).map fun h => match tget h s.sync with
    | none => 0#8
    | some y => match y.sync with | .seeking => 1#8 | .locked => 2#8 | .lost => 3#8) ++
  twoBytes s.stamp.toNat

end Sys2Proof.Machine
end

