-- ==== Sys2Proof/Certificates/Slice0/Obligations.lean ====
section
/-! DEFINITION. The statements for the provers. The words `takes`, `holdsKey`, `responds`, `refuses`, `requested`, `searchEnded`,
`pulses`, `withKind`, `withDetail`, `onlyRecords`, `othersKept`, `atFrame`, `tapCoeff` and the tests of a safe state are those of
Sys2Proof/Safety.lean. Where a command or a boundary may find events of the last boundary still due, the statement speaks of
`settle s`, the state with those events taken (log 4). -/

open Sys2Proof Sys2Proof.Machine

/-! ### The queue and the outcome of a step -/

/-- A step takes the front of the queue; on an empty queue the part idles (the model's choice: log 8, log 20). Every step is taken, in
every state, and leaves the queue alone (POWER_ON too, the model's choice: log 16): the spec gives the part nothing that stops it. -/
def Obligations.StepTakesFront : Prop :=
  (∀ (c : Instr) (rest : List Instr) (s : State), step { s with pending := c :: rest } = exec c { s with pending := rest }) ∧
  (∀ s : State, s.pending = [] → step s = .next s) ∧
  ∀ (i : Instr) (s : State), ∃ t, takes i s t ∧ t.pending = s.pending

/-! ### Power-on -/

/-- POWER_ON puts every piece of state the spec gives a power-on value at that value (R2, R3, R27, R47, R51, R53, R61, R86, R112, R177,
R179, R182, R184, R187), and leaves the queue of steps alone (the model's choice: log 16); the sixteen profiles hold the values of
R168, match-enable being set in profile 0 alone. -/
def Obligations.PowerOn : Prop :=
  (∀ s : State, ∃ t, takes .powerOn s t ∧ t.pending = s.pending ∧
     (∀ c, t.rec? c = none) ∧ (∀ k, tget k t.index = none) ∧ t.free = List.range 6144 ∧
     t.phase = 0 ∧ t.blockCounter = 0 ∧ (∀ h, tget h t.sync = none) ∧ t.stamp = 0 ∧ t.prescale = 0 ∧ t.stampUnit = 1 ∧
     t.slots.length = 512 ∧ (∀ p k, (t.slotAt p).hist.getD k 0 = 0) ∧
     t.sched = .urgency ∧ t.pointer = 0 ∧ t.queue = [] ∧ (∀ u, tget u t.units = none) ∧
     t.resp = none ∧ (∀ h, t.hwPending h = 0) ∧
     t.settings = { routeLost := .a, routeBack := .a, modeA := .latched, modeB := .latched, merge := false, policy := .overwrite } ∧
     t.lineA = { asserted := false, owed := 0 } ∧ t.lineB = { asserted := false, owed := 0 } ∧ t.due = []) ∧
  (∀ (s : State) (p : Nat), p < 16 → ∃ t, takes .powerOn s t ∧
     let f := t.profile p
     f.selHw = 0 ∧ f.selSlot = 0 ∧ f.hwMask = 0 ∧ f.slotMask = 0 ∧ f.matchEnable = decide (p = 0) ∧
     f.bindTime = { span := 32, b0 := 0, w0 := 8, w1 := 4, twoWindows := true, minSeg := 4, searchAtBind := true } ∧
     f.muAcq = 128 ∧ f.muTrack = 32 ∧ f.delta = 65536 ∧ f.tFar = 128 ∧ f.tNear = 64 ∧ f.nlp = .noise ∧
     f.rx = { mode := .auto, target := 2000, gmin := 1024, gmax := 16384, g0 := 4096 } ∧
     f.tx = { mode := .fixed, target := 2000, gmin := 1024, gmax := 16384, g0 := 4096 } ∧
     f.toneEnable = true ∧ f.wMin = 800000 ∧ f.wRel = 72000 ∧ f.recovery = .auto ∧ f.inUse = 0 ∧
     routeOf f.routing .cut = .both ∧ routeOf f.routing .converged = .none ∧ routeOf f.routing .searchDone = .none ∧
     (∀ k, k ∈ [Kind.slow, .searchFailed, .warned, .restored, .tone, .level] → routeOf f.routing k = .a) ∧
     ∀ hw slot, t.pickProfile hw slot 0xFF#8 = some 0)

/-! ### Frames -/

/-- FRAME moves every slot position on by one frame: what entered two frames before leaves, the sample sent on R_out enters the
history at delay 0 and every held sample moves one delay further back; and what enters becomes what R48 says it becomes: itself on
an OFF highway or in an unbound slot of a LOCKED one, 0 on a SEEKING or LOST one, the gained sample on R_out of a bound slot. The
state of the highway, the index and the records are those at the start of the frame. A missing sample reads as 0 (the model's
choice: log 10). -/
def Obligations.FrameMovesSamples : Prop :=
  ∀ (rIn sIn : List Sample) (marks : List SyncMarks) (s : State), ∃ t, takes (.frame rIn sIn marks) s t ∧
    t.slots.length = s.slots.length ∧
    ∀ p, p < s.slots.length →
      let a := t.slotAt p
      let b := s.slotAt p
      let w := atFrame s
      a.rOut = b.r2 ∧ a.sOut = b.s2 ∧ a.r2 = b.r1 ∧ a.s2 = b.s1 ∧
      a.hist.getD 0 0 = b.r2 ∧ (∀ k, k + 1 < 1024 → a.hist.getD (k + 1) 0 = b.hist.getD k 0) ∧
      (w.enabled (p / 64) = false → a.r1 = rIn.getD p 0 ∧ a.s1 = sIn.getD p 0) ∧
      (w.enabled (p / 64) = true → w.locked (p / 64) = false → a.r1 = 0 ∧ a.s1 = 0) ∧
      (w.locked (p / 64) = true →
        (∀ c r, tget p w.index = some c → w.rec? c = some r → r.blk.started = false) →
        a.r1 = rIn.getD p 0 ∧ a.s1 = sIn.getD p 0) ∧
      (w.locked (p / 64) = true → ∀ c r, tget p w.index = some c → w.rec? c = some r → r.blk.started = true →
        a.r1 = sat16 (((rIn.getD p 0).toInt * clampNat r.lev.rx.gain (w.profileOf r).rx.gmin (w.profileOf r).rx.gmax + 2048) / 4096))

/-- A sample in flight is not changed by anything that happens after it entered: no step but FRAME and POWER_ON moves a pin or a sample
in flight, and of these none but RESET HIGHWAY, sent as its row or as a message, changes a history (R48, R50, R51). -/
def Obligations.InFlightSamplesKept : Prop :=
  ∀ (i : Instr) (s t : State), (∀ a b c, i ≠ .frame a b c) → i ≠ .powerOn → takes i s t →
    t.slots.length = s.slots.length ∧
    (∀ p, { t.slotAt p with hist := (s.slotAt p).hist } = s.slotAt p) ∧
    ((∀ h, i ≠ .resetHighway h) → (∀ h bytes bits, i = .commandMessage bytes bits → decodeMessage bytes ≠ .ok (.resetHighway h)) →
      t.slots = s.slots)

/-- The start of a frame and its per-sample work. As a FRAME begins, every record takes its profile's routing (log 14) and a FIXED gain
its profile's G0 (log 11), and, in the first frame of a block, `blk.model` becomes the windows and coefficients that the record then
holds; no step but a FRAME changes it. In a worked frame a bound record whose first block has begun then does the work of R63 to R68,
R103 to R106, R144, R158 and R159, and nothing else of it changes: the estimate uses `blk.model`, and the history after this frame's
reference sample has entered it. A missing sample reads as 0, and a frame that is LOCKED in a block suspended already is worked, also
before the first wholly LOCKED block of a record bound on a highway not LOCKED (the model's choices: log 10, 11, 14, 25). -/
def Obligations.WorkedFrame : Prop :=
  (∀ (s : State) (c : Nat),
     let v := closeFrame s
     let fixed := fun (g : LevelFields) (l : LevelDir) => if g.mode = .fixed then { l with gain := g.g0 } else l
     { atFrame s with ctxs := v.ctxs, lineA := v.lineA, lineB := v.lineB, inForce := v.inForce } = v ∧
     (v.rec? c = none → (atFrame s).rec? c = none) ∧
     ∀ r, v.rec? c = some r → (atFrame s).rec? c = some { r with
       notes := { r.notes with routing := (v.profileOf r).routing }
       lev := { rx := fixed (v.profileOf r).rx r.lev.rx, tx := fixed (v.profileOf r).tx r.lev.tx }
       blk := { r.blk with
         model := if v.phase = 0 then r.wins.list.map (fun w => (w.base, w.segs.flatMap (segRead v.pool))) else r.blk.model } }) ∧
  (∀ (i : Instr) (s t : State) (c : Nat) (r q : Record), (∀ a b d, i ≠ .frame a b d) → takes i s t → s.rec? c = some r →
     t.rec? c = some q → q.blk.model = r.blk.model) ∧
  ∀ (rIn sIn : List Sample) (marks : List SyncMarks) (s t : State) (c : Nat) (r : Record),
    takes (.frame rIn sIn marks) s t → (atFrame s).rec? c = some r → r.blk.started = true →
    (atFrame s).locked r.id.hw = true → r.id.slot < 64 → position r.id.hw r.id.slot < s.slots.length →
    (∀ m ∈ r.blk.model, 16 * m.1 + m.2.length ≤ 1024) →
    let w := atFrame s
    let f := w.profileOf r
    let p := position r.id.hw r.id.slot
    let x := (s.slotAt p).r2
    let h := fun k => if k = 0 then x else (s.slotAt p).hist.getD (k - 1) 0
    let rx := rIn.getD p 0
    let y := sIn.getD p 0
    let A : Int := (r.blk.model.map fun m =>
      ((List.range m.2.length).map fun j => (m.2.getD j 0).toInt * (h (16 * m.1 + j)).toInt).sum).sum
    let e := if r.main = .cut ∨ r.tone.sub = .bypass then y else sat16 (y.toInt - (sat16 ((A + 16384) / 32768)).toInt)
    let nlp := r.main = .track ∧ r.tone.sub = .none ∧ r.gate.state = .far ∧ r.div.band ≠ .suspect ∧ f.nlp ≠ .off
    let clipped := nlp ∧ e.toInt.natAbs ≤ max (2 * r.resid.nf) 1
    let gen := if clipped ∧ f.nlp = .noise then noiseStep r.resid.noise else r.resid.noise
    let u := if r.tone.sub = .bypass ∨ r.main = .cut ∨ r.main = .observe then y
      else if clipped then (if f.nlp = .noise then sat16 ((gen.toInt * r.resid.nf + 16384) / 32768) else 0) else e
    (tget p w.index = some c →
      (t.slotAt p).s1 = sat16 ((u.toInt * clampNat r.lev.tx.gain f.tx.gmin f.tx.gmax + 2048) / 4096)) ∧
    ∃ px la lb : Nat,
      (px : Int) = r.meas.px + (x.toInt * x.toInt - r.meas.px) / 64 ∧
      (la : Int) = r.lev.rx.avg + ((rx.toInt.natAbs : Int) - r.lev.rx.avg) / 64 ∧
      (lb : Int) = r.lev.tx.avg + ((u.toInt.natAbs : Int) - r.lev.tx.avg) / 64 ∧
      t.rec? c = some { r with
        meas := { r.meas with px := px }
        resid := { r.resid with noise := gen }
        lev := { rx := { r.lev.rx with avg := la }, tx := { r.lev.tx with avg := lb } }
        tone := { r.tone with
          rx := { r.tone.rx with acc1 := rx.toInt + (-2571 * r.tone.rx.acc1) / 16384 - r.tone.rx.acc2, acc2 := r.tone.rx.acc1
                                 energy := r.tone.rx.energy + rx.toInt.natAbs ^ 2 }
          tx := { r.tone.tx with acc1 := y.toInt + (-2571 * r.tone.tx.acc1) / 16384 - r.tone.tx.acc2, acc2 := r.tone.tx.acc1
                                 energy := r.tone.tx.energy + y.toInt.natAbs ^ 2 } }
        blk := { r.blk with sIn := r.blk.sIn ++ [y], resid := r.blk.resid ++ [e], ref := r.blk.ref ++ [x] } }

/-- A suspended frame does nothing to a bound record but mark its block suspended, and a frame before the record's first block does
nothing to it at all (R5, R55). At the end of a block with a suspended frame nothing of a record's per-block work is done: every field
holds, but that the tone window in progress ends without a result. At the boundary that begins a record's first block nothing but
that happens to it. -/
def Obligations.SuspendedWork : Prop :=
  (∀ (rIn sIn : List Sample) (marks : List SyncMarks) (s t : State) (c : Nat) (r : Record),
     takes (.frame rIn sIn marks) s t → (atFrame s).rec? c = some r →
     (r.blk.started = false → t.rec? c = some r) ∧
     (r.blk.started = true → (atFrame s).locked r.id.hw = false →
       t.rec? c = some { r with blk := { r.blk with worked := false } })) ∧
  (∀ (s t : State) (c : Nat) (r : Record), 8 ≤ s.phase → rising (settle s).ctxs = true → takes .blockBoundary s t →
     (settle s).rec? c = some r →
     (r.blk.started = true → r.blk.worked = false → t.rec? c = some { r with
       tone := { r.tone with
         rx := { r.tone.rx with acc1 := 0, acc2 := 0, energy := 0 }, tx := { r.tone.tx with acc1 := 0, acc2 := 0, energy := 0 }
         blocks := 0 }
       blk := { r.blk with started := true, worked := true, sIn := [], resid := [], ref := [] } }) ∧
     (r.blk.started = false → t.rec? c = some { r with
       blk := { r.blk with started := true, worked := true, sIn := [], resid := [], ref := [] } }))

/-- The alert lines of a frame. A LATCHED line is asserted exactly when, as the frame begins, a pending kind of some record or highway
has the line in its effective routing; a PULSED line that stays PULSED is asserted, its owed count falling by 1, exactly when it owes
a pulse and was released in the frame before; a line newly PULSED is released and owes nothing; merge holds ALERT_B released. A mode or
merge has changed when it differs between the starts of two frames, so that a change undone within one frame is none: that is the
model's choice (log 12). -/
def Obligations.AlertLines : Prop :=
  ∀ (rIn sIn : List Sample) (marks : List SyncMarks) (s : State), ∃ t, takes (.frame rIn sIn marks) s t ∧
    let v := closeFrame s
    let called := fun (hit : Route → Prop) =>
      (∃ c r k, (c, r) ∈ v.ctxs ∧ hasKind r.notes.kinds k = true ∧ hit (routeOf (v.profileOf r).routing k)) ∨
      (∃ h w, (h, w) ∈ v.hwKinds ∧
        ((w.getLsbD 0 = true ∧ hit s.settings.routeLost) ∨ (w.getLsbD 1 = true ∧ hit s.settings.routeBack)))
    let toA := fun r : Route => r = .a ∨ r = .both ∨ (s.settings.merge = true ∧ r = .b)
    let toB := fun r : Route => s.settings.merge = false ∧ (r = .b ∨ r = .both)
    t.inForce = s.settings ∧
    (s.settings.modeA = .latched → t.lineA.owed = 0 ∧ (t.lineA.asserted = true ↔ called toA)) ∧
    (s.settings.modeA = .pulsed → s.inForce.modeA = .latched → t.lineA = { asserted := false, owed := 0 }) ∧
    (s.settings.modeA = .pulsed → s.inForce.modeA = .pulsed →
      t.lineA = if 0 < v.lineA.owed ∧ v.lineA.asserted = false then { asserted := true, owed := v.lineA.owed - 1 }
        else { asserted := false, owed := v.lineA.owed }) ∧
    (s.settings.modeB = .latched → t.lineB.owed = 0 ∧ (t.lineB.asserted = true ↔ called toB)) ∧
    (s.settings.modeB = .pulsed → s.inForce.modeB = .latched → t.lineB = { asserted := false, owed := 0 }) ∧
    (s.settings.modeB = .pulsed → s.inForce.modeB = .pulsed → s.settings.merge = false →
      t.lineB = if 0 < v.lineB.owed ∧ v.lineB.asserted = false then { asserted := true, owed := v.lineB.owed - 1 }
        else { asserted := false, owed := v.lineB.owed }) ∧
    (s.settings.merge = true → t.lineB.asserted = false ∧ (s.inForce.merge = false → t.lineB.owed = 0))

/-! ### Residual processing and rounding -/

/-- The noise generator: a step shifts right by one place and combines with 0xB400 when the place shifted out held 1; a non-zero state
stays non-zero, and from any non-zero state the generator passes through all 65535 non-zero values before it repeats. A comfort-noise
sample is (r * Nf + 16384) >> 15 of its state read as signed, of a magnitude of at most Nf. -/
def Obligations.ComfortNoise : Prop :=
  ((∀ w : BitVec 16, noiseStep w = if w.toNat % 2 = 1 then BitVec.ofNat 16 (w.toNat / 2) ^^^ 0xB400#16 else BitVec.ofNat 16 (w.toNat / 2)) ∧
   (∀ w : BitVec 16, w ≠ 0 → noiseStep w ≠ 0) ∧
   (∀ w v : BitVec 16, w ≠ 0 → v ≠ 0 → ∃ n, n < 65535 ∧ noiseStep^[n] w = v) ∧
   ∀ (w : BitVec 16) (n m : Nat), w ≠ 0 → n < 65535 → m < 65535 → noiseStep^[n] w = noiseStep^[m] w → n = m) ∧
  (∀ (w : BitVec 16) (nf : Nat), nf ≤ 32767 →
     (comfortNoise w nf).toInt = (w.toInt * nf + 16384) / 32768 ∧ (comfortNoise w nf).toInt.natAbs ≤ nf)

/-- The coefficient step: a coefficient becomes c + D saturated, where D = round-half-away-from-zero(N / D'), N = 16 * mu * g: its
magnitude is floor((2 |N| + D') / 2 D'), its sign that of N, so that g and -g give opposite steps; it is a nearest integer to N / D'. -/
def Obligations.CoefficientStep : Prop :=
  ∀ (mu d : Nat) (c : Coeff) (g : Int), 1 ≤ d →
    let n : Int := 16 * mu * g
    ∃ step : Int, stepCoeff mu d c g = sat16 (c.toInt + step) ∧ stepCoeff mu d c (-g) = sat16 (c.toInt - step) ∧
      step.natAbs = (2 * n.natAbs + d) / (2 * d) ∧ (0 < step → 0 < n) ∧ (step < 0 → n < 0) ∧ 2 * (n - step * d).natAbs ≤ d

/-! ### Highway sync -/

/-- Every FRAME makes the observation of the frame before, if it is not yet made, by the tables of R52 and R53, and keeps its own to
be made: the good count rises to at most 8 and the bad count returns to 0 on a good observation, the reverse on a bad one to at most
2; good 8 takes SEEKING and LOST to LOCKED, bad 2 takes LOCKED to LOST. An OFF highway makes none. That an observation is held in its
highway until a row or the next FRAME makes it (log 6), and that a missing mark reads as none (log 10), are the model's choices. -/
def Obligations.SyncObservations : Prop :=
  ∀ (rIn sIn : List Sample) (marks : List SyncMarks) (s t : State) (h : Nat), h < 8 → takes (.frame rIn sIn marks) s t →
    let m := marks.getD h { atBoundary := false, elsewhere := false }
    let seen := some (m.atBoundary && !m.elsewhere)
    (tget h s.sync = none → tget h t.sync = none) ∧
    ∀ y, tget h s.sync = some y →
      (y.obs = none → tget h t.sync = some { y with obs := seen }) ∧
      ∀ g, y.obs = some g →
        let good := if g then min 8 (y.good + 1) else 0
        let bad := if g then 0 else min 2 (y.bad + 1)
        tget h t.sync = some { good := good, bad := bad, obs := seen, sync := if (y.sync = .seeking ∨ y.sync = .lost) ∧ good = 8 then .locked
          else if y.sync = .locked ∧ bad = 2 then .lost else y.sync }

/-- LOCK, SYNC_LOST and SYNC_BACK make the observation that completes the transition: SEEKING to LOCKED with no notice; LOCKED to LOST
raising SYNC_LOST; LOST to LOCKED raising SYNC_BACK, each kind entered in the highway's set and owed as pulses when newly set. That
the observation is held in its highway until the row makes it is the model's choice (log 6). -/
def Obligations.SyncTransitions : Prop :=
  ∀ (s : State) (h : Nat) (y : Highway), tget h s.sync = some y →
    (y.sync = .seeking → y.obs = some true → 7 ≤ y.good →
      takes (.lock h) s { s with sync := tset h { sync := .locked, good := 8, bad := 0, obs := none } s.sync }) ∧
    (y.sync = .locked → y.obs = some false → 1 ≤ y.bad → ∃ t, takes (.syncLost h) s t ∧
      t.sync = tset h { sync := .lost, good := 0, bad := 2, obs := none } s.sync ∧
      t.hwPending h = (s.hwPending h ||| 1#2) ∧ (∀ k, k ≠ h → t.hwPending k = s.hwPending k) ∧
      pulses (!(s.hwPending h).getLsbD 0) s.inForce.routeLost s t ∧
      { t with sync := s.sync, hwKinds := s.hwKinds, lineA := s.lineA, lineB := s.lineB } = s) ∧
    (y.sync = .lost → y.obs = some true → 7 ≤ y.good → ∃ t, takes (.syncBack h) s t ∧
      t.sync = tset h { sync := .locked, good := 8, bad := 0, obs := none } s.sync ∧
      t.hwPending h = (s.hwPending h ||| 2#2) ∧ (∀ k, k ≠ h → t.hwPending k = s.hwPending k) ∧
      pulses (!(s.hwPending h).getLsbD 1) s.inForce.routeBack s t ∧
      { t with sync := s.sync, hwKinds := s.hwKinds, lineA := s.lineA, lineB := s.lineB } = s)

/-! ### The block boundary -/

/-- BLOCK_BOUNDARY, due after the eighth frame of a block, counts the block and decides the gate of every record whose block was worked:
the far hangover is set to 8 when Ef is at least 8 * Tfar^2 and otherwise runs down by 1, the near hangover to 30 when twice the peak
of S_in is at least the peak of the reference history within the span and the peak is at least Tnear; the gate state is read from
both hangovers. -/
def Obligations.GateDecision : Prop :=
  ∀ s : State, 8 ≤ s.phase → rising (settle s).ctxs = true → ∃ t, takes .blockBoundary s t ∧
    t.phase = 0 ∧ t.blockCounter = s.blockCounter + 1 ∧
    ∀ c r, (settle s).rec? c = some r → r.blk.started = true → r.blk.worked = true →
      let f := (settle s).profileOf r
      let ef := (r.blk.ref.map fun x => x.toInt.natAbs ^ 2).sum
      let smax := r.blk.sIn.foldl (fun m x => max m x.toInt.natAbs) 0
      let xmax := (((settle s).histOf r).take (16 * r.id.span)).foldl (fun m x => max m x.toInt.natAbs) 0
      let far := if 8 * f.tFar ^ 2 ≤ ef then 8 else r.gate.far - 1
      let near := if xmax ≤ 2 * smax ∧ f.tNear ≤ smax then 30 else r.gate.near - 1
      ∃ q, t.rec? c = some q ∧ q.gate.far = far ∧ q.gate.near = near ∧
        q.gate.state = if 0 < far ∧ near = 0 then .far else if far = 0 ∧ 0 < near then .near
          else if 0 < far ∧ 0 < near then .double else .idle

/-- At a worked block end the block energies are replaced and the convergence group moves by R80 and R83: in a block that qualifies
(OBSERVE, ACQUIRE or TRACK, gate decided FAR, not BYPASS) the run rises to at most 32 when the block is good and returns to 0 when it
is not; in ACQUIRE the deadline count rises, and reaching 500 + 14 (n + 1), n the segments held, makes EXPIRY due; a run that rises to
32 in OBSERVE or ACQUIRE makes CONVERGENCE due, unless the same block cuts the record (R82). That the boundary
only makes the two events due, and leaves a deadline count that expires for EXPIRY to write, is the model's choice (log 4). -/
def Obligations.ConvergenceMeasures : Prop :=
  ∀ (s t : State) (c : Nat) (r : Record), 8 ≤ s.phase → rising (settle s).ctxs = true → takes .blockBoundary s t →
    (settle s).rec? c = some r → r.blk.started = true → r.blk.worked = true →
    let power := fun l : List Sample => (l.map fun x => x.toInt.natAbs ^ 2).sum
    let es := power r.blk.sIn
    let ee := power r.blk.resid
    let ef := power r.blk.ref
    ∃ q, t.rec? c = some q ∧
      let qualifies := (r.main = .observe ∨ r.main = .acquire ∨ r.main = .track) ∧ q.gate.state = .far ∧ r.tone.sub ≠ .bypass
      let good := 4 * ee ≤ es ∨ es * 10000 ≤ ef
      let deadline := 500 + 14 * (r.segCount + 1)
      let run := if qualifies then (if good then min 32 (r.conv.run + 1) else 0) else r.conv.run
      let expires := qualifies ∧ r.main = .acquire ∧ deadline ≤ r.conv.deadline + 1
      q.meas = { px := r.meas.px, es := es, ee := ee, ef := ef } ∧
      q.conv = { r.conv with
        run := run
        deadline := if qualifies ∧ r.main = .acquire ∧ ¬expires then r.conv.deadline + 1 else r.conv.deadline } ∧
      (DueEvent.expiry c ∈ t.due ↔ expires) ∧
      (DueEvent.convergence c ∈ t.due ↔ qualifies ∧ good ∧ r.conv.run = 31 ∧ (r.main = .observe ∨ r.main = .acquire) ∧
        ¬(es < ee ∧ 256 ≤ r.div.count + 8))

/-- At a worked block end a qualifying block is judged for divergence: bad (Ee above Es) raises the count by 8, good (2 Ee at most Es)
lowers it by 1, and the band follows the count; WARNED is raised on entry from SOUND; a count that would reach 256 makes CUT due, which
writes it. In CUT an IDLE block raises the quiet count to at most 128, and at 128 RECOVERY is due under AUTO and HOLD_AFTER. That the
boundary only makes CUT and RECOVERY due, and leaves a count that reaches 256 for CUT to write, is the model's choice (log 4). -/
def Obligations.DivergenceJudgment : Prop :=
  ∀ (s t : State) (c : Nat) (r : Record), 8 ≤ s.phase → rising (settle s).ctxs = true → takes .blockBoundary s t →
    (settle s).rec? c = some r → r.blk.started = true → r.blk.worked = true → divFits r = true →
    let power := fun l : List Sample => (l.map fun x => x.toInt.natAbs ^ 2).sum
    let es := power r.blk.sIn
    let ee := power r.blk.resid
    ∃ q, t.rec? c = some q ∧
      let counted := (r.main = .observe ∨ r.main = .acquire ∨ r.main = .track) ∧ q.gate.state = .far ∧ r.tone.sub ≠ .bypass
      let cut := counted ∧ es < ee ∧ 256 ≤ r.div.count + 8
      let count := if counted ∧ ¬cut then (if es < ee then r.div.count + 8 else if 2 * ee ≤ es then r.div.count - 1 else r.div.count)
        else r.div.count
      let quiet := r.main = .cut ∧ q.gate.state = .idle
      q.div.count = count ∧ count ≤ 256 ∧
      q.div.band = (if count ≤ 95 then .sound else if count ≤ 127 then .warned else .suspect) ∧
      q.div.quiet = (if quiet then min 128 (r.div.quiet + 1) else r.div.quiet) ∧
      q.notes.kinds = (if r.div.band = .sound ∧ q.div.band = .warned then r.notes.kinds ||| 16#9 else r.notes.kinds) ∧
      (DueEvent.cut c ∈ t.due ↔ cut) ∧
      (DueEvent.recovery c ∈ t.due ↔ quiet ∧ 127 ≤ r.div.quiet ∧
        (((settle s).profileOf r).recovery = .auto ∨ ((settle s).profileOf r).recovery = .holdAfter))

/-- At a worked block end each direction in AUTO adjusts while its talker speaks and the tone sub-state is NONE: the gain steps by
max(1, G >> 7) toward the target, stopped at its limits, when the average sent level M = (La * G) >> 12 lies outside 7/8 to 9/8 of it,
and the limit run counts the blocks whose step a limit stops, 1000 of them making LEVEL due; and the noise floor falls to a lower
block level at once in an IDLE or FAR block, or its rise counter rises, a sixteenth such block making NOISE_FLOOR_RISE due. That the boundary
only makes the two events due, and leaves a limit run at 1000 and a rise counter at 15 for them to write, is the model's choice
(log 4). -/
def Obligations.LevelsAndFloor : Prop :=
  ∀ (s t : State) (c : Nat) (r : Record), 8 ≤ s.phase → rising (settle s).ctxs = true → takes .blockBoundary s t →
    (settle s).rec? c = some r → r.blk.started = true → r.blk.worked = true →
    let f := (settle s).profileOf r
    let level := ((r.blk.sIn.map fun x => x.toInt.natAbs).sum) / 8
    let adjusted := fun (g : LevelFields) (l : LevelDir) (speaks : Bool) (d : Dir) (l' : LevelDir) =>
      let m := l.avg * l.gain / 4096
      let stepUp := decide (8 * m < 7 * g.target)
      let stepDown := !stepUp && decide (9 * g.target < 8 * m)
      let works := decide (g.mode = .auto) && decide (r.tone.sub = .none) && speaks
      l'.avg = l.avg ∧
      l'.gain = (if works && stepUp then min g.gmax (l.gain + max 1 (l.gain / 128))
        else if works && stepDown then max g.gmin (l.gain - max 1 (l.gain / 128)) else l.gain) ∧
      l'.limit = (if works then
          (if (stepUp ∧ g.gmax ≤ l.gain) ∨ (stepDown ∧ l.gain ≤ g.gmin) then l.limit + 1 else 0) else l.limit) ∧
      (DueEvent.level c d ∈ t.due ↔ works = true ∧ l'.limit = 1000)
    ∃ q, t.rec? c = some q ∧
      let quietGate := q.gate.state = .idle ∨ q.gate.state = .far
      adjusted f.rx r.lev.rx (q.gate.state = .far || q.gate.state = .double) .rx q.lev.rx ∧
      adjusted f.tx r.lev.tx (q.gate.state = .near || q.gate.state = .double) .tx q.lev.tx ∧
      q.resid.noise = r.resid.noise ∧
      q.resid.nf = (if quietGate ∧ level < r.resid.nf then level else r.resid.nf) ∧
      q.resid.rise = (if quietGate then (if level < r.resid.nf then 0 else if r.resid.rise < 15 then r.resid.rise + 1 else r.resid.rise)
        else r.resid.rise) ∧
      (DueEvent.noiseFloorRise c ∈ t.due ↔ quietGate ∧ r.resid.nf ≤ level ∧ 15 ≤ r.resid.rise)

/-- What a boundary leaves alone. In a record whose block was worked no more changes than the measures that the statements above give,
the skip count and the block in progress: key, profile, windows, main state, search link, detail record, lost flag, tone sub-state and
tone runs are kept. The tone window counts the block, and in its tenth WINDOW_END is due. Every WARNED that the boundary newly sets
owes its pulse. Of the part, the stamp, the settings, the highways, the free list, the index, the profiles and the response are kept.
That the boundary only makes WINDOW_END due, and leaves the tenth block of the window for it to write, is the model's choice
(log 4). -/
def Obligations.WorkedBlockFrame : Prop :=
  ∀ s t : State, 8 ≤ s.phase → rising (settle s).ctxs = true → takes .blockBoundary s t →
    let w := settle s
    let newly := fun hit : Route → Bool => w.ctxs.countP fun e =>
      decide (e.2.div.band = .sound) && ((t.rec? e.1).any fun q => decide (q.div.band = .warned)) &&
        !hasKind e.2.notes.kinds .warned && hit (routeOf e.2.notes.routing .warned)
    let a := newly fun r => r = .a || r = .both || (w.inForce.merge && r = .b)
    let b := newly fun r => !w.inForce.merge && (r = .b || r = .both)
    { t with
      phase := w.phase, blockCounter := w.blockCounter, pointer := w.pointer, ctxs := w.ctxs, pool := w.pool, units := w.units
      prescale := w.prescale, due := w.due, lineA := w.lineA, lineB := w.lineB } = w ∧
    t.lineA = (if 0 < a ∧ w.inForce.modeA = .pulsed then { w.lineA with owed := min 255 (w.lineA.owed + a) } else w.lineA) ∧
    t.lineB = (if 0 < b ∧ w.inForce.modeB = .pulsed then { w.lineB with owed := min 255 (w.lineB.owed + b) } else w.lineB) ∧
    (∀ c, w.rec? c = none → t.rec? c = none) ∧
    ∀ c r, w.rec? c = some r → r.blk.started = true → r.blk.worked = true →
      (DueEvent.windowEnd c ∈ t.due ↔ 9 ≤ r.tone.blocks) ∧
      ∃ q, t.rec? c = some q ∧ q = { r with
        conv := q.conv, meas := q.meas, gate := q.gate, resid := q.resid, div := q.div, lev := q.lev, skip := q.skip
        tone := { r.tone with blocks := if 9 ≤ r.tone.blocks then r.tone.blocks else r.tone.blocks + 1 }
        notes := { r.notes with kinds := q.notes.kinds }
        blk := { r.blk with started := true, worked := true, sIn := [], resid := [], ref := [] } }

/-! ### The scheduler and the coefficient update -/

/-- The selection at a boundary. The candidates are the bound records whose block was worked, in OBSERVE, ACQUIRE or TRACK, with gate
decided FAR and not in BYPASS. The walk considers each in its place of the order: it is selected exactly when its cost and the costs
selected before it sum to at most 49,152, and the walk goes on past one that is not; so the selected costs sum to at most 49,152, the
first candidate is selected when it costs no more than that, and every candidate is when all of them together do not. Each
candidate's skip count returns to 0 or rises by 1 to at most 255, and no other's changes; the rotation pointer moves, in INDEX mode,
to one past the last selected. The order of the walk: in URGENCY mode the classes of R90 one after another, in INDEX mode the contexts
from the rotation pointer on and then those below it; within each part by ascending context number, and each candidate once. -/
def Obligations.Selection : Prop :=
  (∀ s : State, 8 ≤ s.phase → rising (settle s).ctxs = true → ∃ t, takes .blockBoundary s t ∧
     let u := settle s
     let order := walkOrder u.sched u.pointer u.candidates
     let cost := fun l : List (Nat × Record) => (l.map fun e => 16 * e.2.segCount).sum
     let chosen := fun l : List (Nat × Record) => l.filter fun e => e.1 ∈ u.selection
     rising u.candidates = true ∧ (∀ c r, (c, r) ∈ u.candidates → u.rec? c = some r) ∧
     u.selection = (chosen order).map (·.1) ∧
     (∀ l₁ l₂ e, order = l₁ ++ e :: l₂ → (e.1 ∈ u.selection ↔ cost (chosen l₁) + 16 * e.2.segCount ≤ 49152)) ∧
     cost (chosen u.candidates) ≤ 49152 ∧
     (∀ c r l, order = (c, r) :: l → 16 * r.segCount ≤ 49152 → c ∈ u.selection) ∧
     (cost u.candidates ≤ 49152 → ∀ c r, (c, r) ∈ u.candidates → c ∈ u.selection) ∧
     (∀ c r, u.rec? c = some r → ∃ q, t.rec? c = some q ∧
       ((c, r) ∈ u.candidates ↔ r.blk.started = true ∧ r.blk.worked = true ∧
         (r.main = .observe ∨ r.main = .acquire ∨ r.main = .track) ∧ q.gate.state = .far ∧ r.tone.sub ≠ .bypass) ∧
       q.skip = if (c, r) ∈ u.candidates then (if c ∈ u.selection then 0 else min 255 (r.skip + 1)) else r.skip) ∧
     (s.sched = .urgency ∨ u.selection = [] → t.pointer = s.pointer) ∧
     (s.sched = .index → ∀ l c, u.selection = l ++ [c] → t.pointer = (c + 1) % 384)) ∧
  (∀ (mode : SchedMode) (pointer : Nat) (cs : List (Nat × Record)), rising cs = true →
     (walkOrder mode pointer cs).Perm cs ∧
     ∀ (l₁ l₂ l₃ : List (Nat × Record)) (e d : Nat × Record), walkOrder mode pointer cs = l₁ ++ e :: l₂ ++ d :: l₃ →
       (mode = .urgency →
         let cls := fun x : Nat × Record => if 16 ≤ x.2.skip then 0
           else if x.2.main = .track ∧ (x.2.div.band = .sound ∨ x.2.div.band = .warned) then 2 else 1
         cls e < cls d ∨ (cls e = cls d ∧ e.1 < d.1)) ∧
       (mode = .index → (pointer ≤ e.1 ∧ d.1 < pointer) ∨ ((pointer ≤ e.1 ↔ pointer ≤ d.1) ∧ e.1 < d.1)))

/-- The coefficient update of a boundary. In a record that the scheduler selected, the coefficient of every active tap k becomes
c_k + round-half-away-from-zero(16 mu g_k / D), saturated, where g_k is the block's correlation of the residuals with the reference at
delay k, D is the tap count times Px plus the profile's delta, and mu is mu_track in TRACK below SUSPECT and mu_acq otherwise; in a
record that was not selected, its block suspended or not yet begun among the reasons, every coefficient is kept, as in every free
segment. -/
def Obligations.CoefficientUpdate : Prop :=
  ∀ s : State, 8 ≤ s.phase → segmentsSafe (settle s) → poolWf (settle s).pool = true → ∃ t, takes .blockBoundary s t ∧
    let u := settle s
    (∀ g ∈ u.free, segRead t.pool g = segRead u.pool g) ∧
    ∀ c r w i g j, u.rec? c = some r → w ∈ r.wins.list → w.segs[i]? = some g → j < 16 →
      let f := u.profileOf r
      let k := 16 * (w.base + i) + j
      let corr : Int := ((List.range 8).map fun n => (r.blk.resid.getD n 0).toInt * ((u.histOf r).getD (k + 7 - n) 0).toInt).sum
      let mu := if r.main = .track ∧ (r.div.band = .sound ∨ r.div.band = .warned) then f.muTrack else f.muAcq
      let d := 16 * r.segCount * r.meas.px + f.delta
      let old := (segRead u.pool g).getD j 0
      (c ∉ u.selection → (segRead t.pool g).getD j 0 = old) ∧
      (c ∈ u.selection → r.blk.resid.length = 8 → (segRead t.pool g).getD j 0 = sat16 (old.toInt + roundAway (16 * mu * corr) d))

/-! ### The stamp counter -/

/-- The stamp counter. At a block boundary the prescale count rises by 1; reaching the unit it makes STAMP_ADVANCE due, which returns it
to 0 and advances the stamp, wrapping from 65535 to 0. RESET STAMP sets both to 0 and answers the stamp, the unit and the block
counter. That the boundary only makes STAMP_ADVANCE due, and leaves a prescale count that reaches the unit for it to write, is the
model's choice (log 4). -/
def Obligations.StampCounter : Prop :=
  (∀ s : State, 8 ≤ s.phase → ∃ t, takes .blockBoundary s t ∧ t.stamp = (settle s).stamp ∧
    (if s.stampUnit ≤ (settle s).prescale + 1 then DueEvent.stampAdvance ∈ t.due ∧ t.prescale = (settle s).prescale
      else DueEvent.stampAdvance ∉ t.due ∧ t.prescale = (settle s).prescale + 1)) ∧
  (∀ s : State, DueEvent.stampAdvance ∈ s.due → ∃ t, takes .stampAdvance s t ∧ t.prescale = 0 ∧
    t.stamp.toNat = (s.stamp.toNat + 1) % 65536 ∧ t.due = s.due.erase .stampAdvance ∧
    { t with prescale := s.prescale, stamp := s.stamp, due := s.due } = s) ∧
  ∀ s : State, takes .resetStamp s (responds 3 false false false
    ([0, 0, BitVec.ofNat 8 s.stampUnit] ++ [s.blockCounter.extractLsb' 24 8, s.blockCounter.extractLsb' 16 8,
      s.blockCounter.extractLsb' 8 8, s.blockCounter.extractLsb' 0 8]) { settle s with stamp := 0, prescale := 0 })

/-! ### Events of a block end -/

/-- When events are taken (the model's choices: log 3 to 7, 17). An event row taken while its event is not due changes nothing: the rows
of a boundary's events, LOCK, SYNC_LOST and SYNC_BACK where the held observation brings no such transition, BLOCK_BOUNDARY before the
eighth frame, SEARCH_COMPLETION and SEARCH_FAILURE of a unit not at its end. Settling is a run of the rows of all events that are due, in
their order, and then of the TONE_ENTRY and RELEASE rows that their window ends make due; it leaves none, and what is settled stays as it
is. A FRAME first ends the frame before: the sync observations that no row has made are made, raising SYNC_LOST and SYNC_BACK where they
bring those transitions; after the eighth frame of a block BLOCK_BOUNDARY is taken as by its row; every event that is due is taken; and
the searches at their end complete or fail as by their rows, units ascending. Then the frame begins and is counted, and nothing is left
due; its samples and observations change the slots, the records, the units and the highways alone, and bring none of these into being. -/
def Obligations.EventsInTime : Prop :=
  (∀ s : State, (settle s).due = [] ∧ settle (settle s) = settle s ∧
    ∃ l : List DueEvent, (∀ e ∈ l, ∃ c, e = .toneEntry c ∨ e = .release c) ∧ runs ((s.due ++ l).map rowOf) s (settle s)) ∧
  (∀ (c : Nat) (d : Dir) (s : State),
    (DueEvent.convergence c ∉ s.due → takes (.convergence c) s s) ∧ (DueEvent.expiry c ∉ s.due → takes (.expiry c) s s) ∧
    (DueEvent.cut c ∉ s.due → takes (.cut c) s s) ∧ (DueEvent.recovery c ∉ s.due → takes (.recovery c) s s) ∧
    (DueEvent.level c d ∉ s.due → takes (.level c d) s s) ∧
    (DueEvent.noiseFloorRise c ∉ s.due → takes (.noiseFloorRise c) s s) ∧
    (DueEvent.stampAdvance ∉ s.due → takes .stampAdvance s s) ∧ (DueEvent.windowEnd c ∉ s.due → takes (.windowEnd c) s s) ∧
    (DueEvent.toneEntry c ∉ s.due → takes (.toneEntry c) s s) ∧ (DueEvent.release c ∉ s.due → takes (.release c) s s)) ∧
  (∀ (h : Nat) (s : State),
    let holds := fun (from_ : SyncState) (good : Bool) (enough : Highway → Prop) =>
      ∃ y, tget h s.sync = some y ∧ y.sync = from_ ∧ y.obs = some good ∧ enough y
    (¬holds .seeking true (fun y => 7 ≤ y.good) → takes (.lock h) s s) ∧
    (¬holds .locked false (fun y => 1 ≤ y.bad) → takes (.syncLost h) s s) ∧
    (¬holds .lost true (fun y => 7 ≤ y.good) → takes (.syncBack h) s s)) ∧
  (∀ s : State, s.phase < 8 → takes .blockBoundary s s) ∧
  (∀ (u : Nat) (s : State),
    let w := settle s
    let ended := fun atEnd : SearchUnit → Prop =>
      ∃ un, tget u w.units = some un ∧ if 8 ≤ s.phase then un.begun = true ∧ atEnd (w.unitEnd un) else atEnd un
    (¬ended (fun un => 64 ≤ un.qual) → takes (.searchCompletion u) s s) ∧
    (¬ended (fun un => 512 ≤ un.blocks ∧ un.qual < 64) → takes (.searchFailure u) s s)) ∧
  ∀ (rIn sIn : List Sample) (marks : List SyncMarks) (s : State), ∃ b t,
    let o := (List.range 8).foldl makeObs s
    let u := closeFrame s
    { o with sync := s.sync, hwKinds := s.hwKinds, lineA := s.lineA, lineB := s.lineB } = s ∧
    (8 ≤ s.phase → takes .blockBoundary o b) ∧ (s.phase < 8 → b = o) ∧
    runs [.searchCompletion 0, .searchFailure 0, .searchCompletion 1, .searchFailure 1, .searchCompletion 2, .searchFailure 2,
      .searchCompletion 3, .searchFailure 3] (settle b) u ∧
    u.phase = (if 8 ≤ s.phase then 0 else s.phase) ∧ u.due = [] ∧
    takes (.frame rIn sIn marks) s t ∧ t.phase = u.phase + 1 ∧ t.due = [] ∧
    (let a := atFrame s
     { t with slots := a.slots, ctxs := a.ctxs, units := a.units, sync := a.sync, phase := a.phase } = a ∧
     t.slots.length = a.slots.length ∧ t.ctxs.map (·.1) = a.ctxs.map (·.1) ∧ t.units.map (·.1) = a.units.map (·.1) ∧
     t.sync.map (·.1) = a.sync.map (·.1)) ∧
    ∀ h, t.hwPending h = match tget h s.sync with
      | none => s.hwPending h
      | some y => if h < 8 ∧ y.sync = .locked ∧ y.obs = some false ∧ 1 ≤ y.bad then s.hwPending h ||| 1#2
        else if h < 8 ∧ y.sync = .lost ∧ y.obs = some true ∧ 7 ≤ y.good then s.hwPending h ||| 2#2 else s.hwPending h

/-- CONVERGENCE takes an ACQUIRE record to TRACK: converged-once is set, CONVERGED is raised and a detail record (ACQUIRE, TRACK, stamp)
is written; in OBSERVE it sets observe-converged alone. EXPIRY returns the deadline count to 0: the first raises SLOW and requests a
search by R113, made for the record as the event leaves it; the second raises SLOW; a later one does neither. Nothing else of the
part changes. An EXPIRY taken after a CONVERGENCE of the same block end, in TRACK, happens all the same (DEDUCED, the model's choice:
log 21); in CUT and HELD, to which a cut of the same block end has taken the record first, there is no expiry (R85). -/
def Obligations.ConvergenceAndExpiryEvents : Prop :=
  (∀ (s : State) (c : Nat) (r : Record), DueEvent.convergence c ∈ s.due → s.rec? c = some r →
     (r.main = .acquire → ∃ t, takes (.convergence c) s t ∧
       t.rec? c = some { r with
         main := .track
         conv := { r.conv with convergedOnce := true }
         notes := withKind .converged (withDetail s.settings.policy (.main .acquire .track s.stamp) r.notes) } ∧
       pulses (!hasKind r.notes.kinds .converged) (routeOf r.notes.routing .converged) s t ∧
       t.due = s.due.erase (.convergence c) ∧ othersKept c s t ∧ t.queue = s.queue ∧ t.units = s.units ∧ onlyRecords s t) ∧
     (r.main = .observe → takes (.convergence c) s { s with
       ctxs := tset c { r with conv := { r.conv with observeConverged := true } } s.ctxs
       due := s.due.erase (.convergence c) })) ∧
  (∀ (s : State) (c : Nat) (r : Record), DueEvent.expiry c ∈ s.due → s.rec? c = some r → (r.main = .acquire ∨ r.main = .track) →
     ∃ t, takes (.expiry c) s t ∧ t.due = s.due.erase (.expiry c) ∧ onlyRecords s t ∧
       (r.conv.expiry < 2 → pulses (!hasKind r.notes.kinds .slow) (routeOf r.notes.routing .slow) s t) ∧
       (r.conv.expiry = 0 →
         let r' := { r with conv := { r.conv with deadline := 0, expiry := 1 }, notes := withKind .slow r.notes }
         requested c r' true { t with ctxs := tset c r' s.ctxs, queue := s.queue, units := s.units } t) ∧
       (r.conv.expiry = 1 →
         t.ctxs = tset c { r with conv := { r.conv with deadline := 0, expiry := 2 }, notes := withKind .slow r.notes } s.ctxs ∧
         t.queue = s.queue ∧ t.units = s.units) ∧
       (2 ≤ r.conv.expiry →
         t = { s with ctxs := tset c { r with conv := { r.conv with deadline := 0 } } s.ctxs, due := s.due.erase (.expiry c) })) ∧
  (∀ (s : State) (c : Nat) (r : Record), DueEvent.expiry c ∈ s.due → s.rec? c = some r → (r.main = .cut ∨ r.main = .held) →
     takes (.expiry c) s { s with due := s.due.erase (.expiry c) })

/-- CUT takes the record out of the send path, to HELD under HOLD_AT_CUT and to CUT under the other recovery modes: count 256, band
SUSPECT, quiet count 0, converged-once clear and run 0, every coefficient of its windows 0 and no other segment's changed, any search
of it ended, CUT raised and a detail record written. Deadline and expiry counts, echo-free flag and windows are kept. -/
def Obligations.CutEvent : Prop :=
  ∀ (s : State) (c : Nat) (r : Record), searchSafe s = true → DueEvent.cut c ∈ s.due → s.rec? c = some r →
    (r.main = .observe ∨ r.main = .acquire ∨ r.main = .track) →
    ∃ t, takes (.cut c) s t ∧
      let dest := if (s.profileOf r).recovery = .holdAtCut then MainState.held else .cut
      t.rec? c = some { r with
        main := dest
        conv := { r.conv with run := 0, convergedOnce := false
                              observeConverged := if r.main = .observe then false else r.conv.observeConverged }
        div := { count := 256, band := .suspect, quiet := 0 }
        link := .none
        notes := withKind .cut (withDetail s.settings.policy (.main r.main dest s.stamp) r.notes) } ∧
      (∀ g, segRead t.pool g = if g ∈ r.wins.segs then List.replicate 16 0 else segRead s.pool g) ∧
      searchEnded c r.link true s t ∧
      pulses (!hasKind r.notes.kinds .cut) (routeOf r.notes.routing .cut) s t ∧
      t.due = s.due.erase (.cut c) ∧ onlyRecords s { t with pool := s.pool }

/-- RECOVERY returns a CUT record to ACQUIRE under AUTO, with run, deadline and expiry counts 0 and a search requested, and to HELD under
HOLD_AFTER; the divergence and quiet counts return to 0 and the band to SOUND, RESTORED is raised, a detail record is written. Under
the other modes nothing happens to the record. -/
def Obligations.RecoveryEvent : Prop :=
  ∀ (s : State) (c : Nat) (r : Record), DueEvent.recovery c ∈ s.due → s.rec? c = some r → r.main = .cut → r.link = .none →
    let cleared : DivGroup := { count := 0, band := .sound, quiet := 0 }
    ((s.profileOf r).recovery = .auto → ∃ t u, takes (.recovery c) s t ∧
      let r' := { r with
        main := .acquire, div := cleared, conv := { r.conv with run := 0, deadline := 0, expiry := 0 }
        notes := withDetail s.settings.policy (.main .cut .acquire s.stamp) r.notes }
      requested c r' true { s with ctxs := tset c r' s.ctxs, due := s.due.erase (.recovery c) } u ∧
      (∃ q, u.rec? c = some q ∧ t.rec? c = some { q with notes := withKind .restored q.notes }) ∧
      othersKept c u t ∧ t.queue = u.queue ∧ t.units = u.units ∧ t.due = u.due ∧
      pulses (!hasKind r.notes.kinds .restored) (routeOf r.notes.routing .restored) s t ∧ onlyRecords s t) ∧
    ((s.profileOf r).recovery = .holdAfter → ∃ t, takes (.recovery c) s t ∧
      t.rec? c = some { r with
        main := .held, div := cleared
        notes := withKind .restored (withDetail s.settings.policy (.main .cut .held s.stamp) r.notes) } ∧
      othersKept c s t ∧ t.queue = s.queue ∧ t.units = s.units ∧ t.due = s.due.erase (.recovery c) ∧
      pulses (!hasKind r.notes.kinds .restored) (routeOf r.notes.routing .restored) s t ∧ onlyRecords s t) ∧
    (((s.profileOf r).recovery = .stay ∨ (s.profileOf r).recovery = .holdAtCut) →
      takes (.recovery c) s { s with due := s.due.erase (.recovery c) })

/-- LEVEL sets the direction's limit run to 0 and raises LEVEL; NOISE_FLOOR_RISE raises the noise floor by max(1, Nf >> 6), at most to
32767, and returns the rise counter to 0. Nothing else changes. -/
def Obligations.LevelAndFloorEvents : Prop :=
  ∀ (s : State) (c : Nat) (r : Record), s.rec? c = some r →
    (∀ d, DueEvent.level c d ∈ s.due → ∃ t, takes (.level c d) s t ∧
      t.rec? c = some { r with
        lev := match d with
          | .rx => { r.lev with rx := { r.lev.rx with limit := 0 } }
          | .tx => { r.lev with tx := { r.lev.tx with limit := 0 } }
        notes := withKind .level r.notes } ∧
      pulses (!hasKind r.notes.kinds .level) (routeOf r.notes.routing .level) s t ∧
      othersKept c s t ∧ t.queue = s.queue ∧ t.units = s.units ∧ t.due = s.due.erase (.level c d) ∧ onlyRecords s t) ∧
    (DueEvent.noiseFloorRise c ∈ s.due → takes (.noiseFloorRise c) s { s with
      ctxs := tset c { r with resid := { r.resid with nf := min 32767 (r.resid.nf + max 1 (r.resid.nf / 64)), rise := 0 } } s.ctxs
      due := s.due.erase (.noiseFloorRise c) })

/-- WINDOW_END with tone detection on. Each direction is tonal when W is at least Wmin and P at least 20 W; its run, gap count and
previous end state move by R146; a reversal in either sets the reversal-seen flag, which a run that ends clears otherwise. In NLP_OFF a
reversal takes the record to BYPASS, raising TONE; in NONE a run of 30 makes TONE_ENTRY due; in NLP_OFF and BYPASS a window quiet in
both directions raises the release count, at 25 making RELEASE due, and any other returns it to 0. That WINDOW_END only makes TONE_ENTRY
and RELEASE due, leaving the sub-state NONE and the release count at 25 for them to write, is the model's choice (log 4). -/
def Obligations.WindowEnd : Prop :=
  ∀ (s : State) (c : Nat) (r : Record), DueEvent.windowEnd c ∈ s.due → s.rec? c = some r → (s.profileOf r).toneEnable = true →
    let f := s.profileOf r
    let isTonal := fun d : ToneDir => decide (f.wMin ≤ d.energy) &&
      decide (20 * (d.energy : Int) ≤ d.acc1 ^ 2 + d.acc2 ^ 2 - (-2571 * d.acc1 * d.acc2) / 16384)
    let seen := fun d : ToneDir => isTonal d && decide (d.gap ≤ 1) &&
      (match d.prev with | none => false | some p => decide (d.acc1 * p.1 + d.acc2 * p.2 < 0))
    let ends := fun d : ToneDir => !isTonal d && decide (d.gap = 1) && decide (0 < d.run)
    let next := fun d : ToneDir => ({
      acc1 := 0, acc2 := 0, energy := 0
      run := if isTonal d then min 30 (d.run + 1) else if d.gap = 1 then 0 else d.run
      gap := if isTonal d then 0 else min 2 (d.gap + 1)
      prev := if isTonal d then some (d.acc1, d.acc2) else d.prev } : ToneDir)
    let quiet := r.tone.rx.energy < f.wRel ∧ r.tone.tx.energy < f.wRel
    let reversal := seen r.tone.rx || seen r.tone.tx
    let toBypass := r.tone.sub = .nlpOff ∧ reversal = true
    let count := if quiet then min 25 (r.tone.release + 1) else 0
    ∃ t, takes (.windowEnd c) s t ∧
      t.rec? c = some { r with
        tone := { sub := if toBypass then .bypass else r.tone.sub
                  rx := next r.tone.rx, tx := next r.tone.tx, blocks := 0
                  reversal := if reversal then true else if ends r.tone.rx || ends r.tone.tx then false else r.tone.reversal
                  release := if toBypass then 0 else if r.tone.sub = .none then r.tone.release else count }
        notes := if toBypass then withDetail s.settings.policy (.tone .nlpOff .bypass s.stamp) (withKind .tone r.notes)
          else r.notes } ∧
      t.due = s.due.erase (.windowEnd c) ++
        (if r.tone.sub = .none ∧ ((next r.tone.rx).run = 30 ∨ (next r.tone.tx).run = 30) then [DueEvent.toneEntry c]
          else if r.tone.sub ≠ .none ∧ ¬toBypass ∧ count = 25 then [DueEvent.release c] else []) ∧
      pulses (decide toBypass && !hasKind r.notes.kinds .tone) (routeOf r.notes.routing .tone) s t ∧
      othersKept c s t ∧ t.queue = s.queue ∧ t.units = s.units ∧ onlyRecords s t

/-- TONE_ENTRY takes the sub-state from NONE to BYPASS when the reversal-seen flag is set and to NLP_OFF when it is not; RELEASE, and a
WINDOW_END with tone detection off, clear the tone group, and returning to NONE from another sub-state set the convergence run to 0.
Each change of sub-state raises TONE, writes a detail record and sets the release count to 0. -/
def Obligations.ToneSubStates : Prop :=
  ∀ (s : State) (c : Nat) (r : Record), s.rec? c = some r →
    let silent : ToneDir := { acc1 := 0, acc2 := 0, energy := 0, prev := none, run := 0, gap := 0 }
    let cleared : ToneGroup := { sub := .none, rx := silent, tx := silent, reversal := false, release := 0, blocks := 0 }
    let changed := fun (t : State) (new : ToneSub) (q : Record) (e : DueEvent) =>
      t.rec? c = some { q with
        notes := withDetail s.settings.policy (.tone r.tone.sub new s.stamp) (withKind .tone r.notes) } ∧
      t.due = s.due.erase e ∧ pulses (!hasKind r.notes.kinds .tone) (routeOf r.notes.routing .tone) s t ∧
      othersKept c s t ∧ t.queue = s.queue ∧ t.units = s.units ∧ onlyRecords s t
    let released := { r with tone := cleared, conv := { r.conv with run := 0 } }
    (DueEvent.toneEntry c ∈ s.due → r.tone.sub = .none → ∃ t, takes (.toneEntry c) s t ∧
      let new := if r.tone.reversal then ToneSub.bypass else .nlpOff
      changed t new { r with tone := { r.tone with sub := new, release := 0 } } (.toneEntry c)) ∧
    (DueEvent.release c ∈ s.due → r.tone.sub ≠ .none → ∃ t, takes (.release c) s t ∧ changed t .none released (.release c)) ∧
    (DueEvent.windowEnd c ∈ s.due → (s.profileOf r).toneEnable = false →
      (r.tone.sub ≠ .none → ∃ t, takes (.windowEnd c) s t ∧ changed t .none released (.windowEnd c)) ∧
      (r.tone.sub = .none → takes (.windowEnd c) s { s with
        ctxs := tset c { r with tone := cleared } s.ctxs, due := s.due.erase (.windowEnd c) }))

/-! ### Search units -/

/-- In a worked frame a unit whose search has begun forms a shadow residual of S_in from its own filter over the taps of its span and the
slot's history, and nothing else of it changes; in a suspended frame, or before its first block, nothing changes. At a boundary a search
whose first block it opens begins; in any other the block is counted, and in a block worked throughout, decided FAR and not in BYPASS the
qualifying count rises and each shadow coefficient of the span moves by round-half-away-from-zero(2048 g_k / (1024 Px + delta)),
saturated; the coefficients beyond the span, and all of them in any other block, are kept. A missing sample reads as 0 (the model's
choice: log 10). -/
def Obligations.ShadowFilter : Prop :=
  (∀ (rIn sIn : List Sample) (marks : List SyncMarks) (s t : State) (u : Nat) (un : SearchUnit) (r : Record),
     takes (.frame rIn sIn marks) s t → tget u (atFrame s).units = some un → (atFrame s).rec? un.ctx = some r → un.span ≤ 64 →
     position r.id.hw r.id.slot < s.slots.length →
     let p := position r.id.hw r.id.slot
     let h := fun k => if k = 0 then (s.slotAt p).r2 else (s.slotAt p).hist.getD (k - 1) 0
     let a : Int := ((List.range (16 * un.span)).map fun k => (un.shadow.getD k 0).toInt * (h k).toInt).sum
     tget u t.units = some (if un.begun = true ∧ r.blk.started = true ∧ (atFrame s).locked r.id.hw = true then
         { un with resid := un.resid ++ [sat16 ((sIn.getD p 0).toInt - (sat16 ((a + 16384) / 32768)).toInt)] }
       else un)) ∧
  (∀ (s t : State) (u : Nat) (un : SearchUnit) (r : Record), 8 ≤ s.phase → rising (settle s).ctxs = true → takes .blockBoundary s t →
     tget u (settle s).units = some un → (settle s).rec? un.ctx = some r → un.shadow.length = 1024 → un.span ≤ 64 →
     ∃ v q, tget u t.units = some v ∧ t.rec? un.ctx = some q ∧ v.ctx = un.ctx ∧ v.span = un.span ∧ v.begun = true ∧ v.resid = [] ∧
       (un.begun = false → v.shadow = un.shadow ∧ v.qual = un.qual ∧ v.blocks = un.blocks) ∧
       (un.begun = true →
         let qualifies := r.blk.started = true ∧ r.blk.worked = true ∧ q.gate.state = .far ∧ r.tone.sub ≠ .bypass
         let d := 1024 * r.meas.px + ((settle s).profileOf r).delta
         v.blocks = un.blocks + 1 ∧ v.qual = (if qualifies then un.qual + 1 else un.qual) ∧ v.shadow.length = 1024 ∧
         (¬qualifies → v.shadow = un.shadow) ∧
         (qualifies → un.resid.length = 8 → ∀ k, k < 1024 →
           let g : Int := ((List.range 8).map fun n =>
             (un.resid.getD n 0).toInt * (((settle s).histOf r).getD (k + 7 - n) 0).toInt).sum
           v.shadow.getD k 0 = if k < 16 * un.span then
             sat16 ((un.shadow.getD k 0).toInt + roundAway (2048 * g) d) else un.shadow.getD k 0)))

/-- The evaluation of a shadow filter over a span: ECHO_FREE when every segment energy is below 2^20; otherwise the peak window alone, or
with the window of the accepted second peak, in order of base and merged when the second begins at most two positions after the
first ends. -/
def Obligations.Evaluation : Prop :=
  ∀ (b : BindFields) (shadow : List Coeff) (span : Nat), 1 ≤ span → span ≤ 64 → 1 ≤ b.w0 → 1 ≤ b.w1 →
    let en := fun p => ((List.range 16).map fun j => (shadow.getD (16 * p + j) 0).toInt.natAbs ^ 2).sum
    let peakOf := fun (ok : Nat → Prop) (p : Nat) =>
      p < span ∧ ok p ∧ (∀ q, q < span → ok q → en q ≤ en p) ∧ ∀ q, q < p → ok q → en q < en p
    let base := fun p w => if p - (if w = 1 then 0 else 1) + w ≤ span then p - (if w = 1 then 0 else 1) else span - w
    let limit := fun p w => min (span - 1) (base p w + w - 1)
    let clear := fun p q => q + 2 ≤ base p b.w0 ∨ limit p b.w0 + 2 ≤ q
    (evaluate b shadow span = none ↔ ∀ p, p < span → en p < 1048576) ∧
    ∀ p, peakOf (fun _ => True) p → 1048576 ≤ en p →
      base p b.w0 ≤ p ∧ p ≤ limit p b.w0 ∧
      ((b.twoWindows = false ∨ ∀ q, q < span → clear p q → 4 * en q < en p) →
        evaluate b shadow span = some ((base p b.w0, limit p b.w0 + 1 - base p b.w0), none)) ∧
      ∀ q, b.twoWindows = true → peakOf (clear p) q → en p ≤ 4 * en q →
        let b1 := min (base p b.w0) (base q b.w1)
        let b2 := max (base p b.w0) (base q b.w1)
        let l1 := if base q b.w1 < base p b.w0 then limit q b.w1 else limit p b.w0
        let l2 := if base q b.w1 < base p b.w0 then limit p b.w0 else limit q b.w1
        evaluate b shadow span = some (if b2 ≤ l1 + 2 then ((b1, max l1 l2 + 1 - b1), none)
          else ((b1, l1 + 1 - b1), some (b2, l2 + 1 - b2)))

/-- SEARCH_COMPLETION, at the boundary that ends the 64th qualifying block or just before that boundary is taken (then after the unit's
own work of the block, the model's choice: log 17). An ECHO_FREE result sets the echo-free flag; a result that places windows clears it,
relocates the record to them with the shadow filter's coefficients, and, where they differ from the windows held, takes the convergence of
the record back as its main state says. SEARCH_DONE is raised and the unit takes the head of the queue or becomes IDLE. -/
def Obligations.SearchCompletion : Prop :=
  ∀ (s : State) (u : Nat) (un₀ un : SearchUnit) (r : Record), searchSafe (settle s) = true → segmentsSafe (settle s) →
    tget u (settle s).units = some un₀ → (8 ≤ s.phase → un₀.begun = true) →
    un = (if 8 ≤ s.phase then (settle s).unitEnd un₀ else un₀) → 64 ≤ un.qual → (settle s).rec? un₀.ctx = some r →
    let w := settle s
    let c := un₀.ctx
    let result := evaluate (w.profileOf r).bindTime un.shadow un.span
    let done := fun t : State => searchEnded c (.searching u) (decide (s.phase < 8)) w t ∧
      pulses (!hasKind r.notes.kinds .searchDone) (routeOf r.notes.routing .searchDone) w t ∧ t.due = []
    (result = none → ∃ t, takes (.searchCompletion u) s t ∧ done t ∧ onlyRecords w t ∧
      t.rec? c = some { r with
        conv := { r.conv with echoFree := true }, link := .none, notes := withKind .searchDone r.notes }) ∧
    ∀ first second, result = some (first, second) → ∃ t v, takes (.searchCompletion u) s t ∧ done t ∧
      relocated r.wins first second (fun k => un.shadow.getD k 0) w t v ∧ onlyRecords w { t with free := w.free, pool := w.pool } ∧
      ∃ q, t.rec? c = some q ∧
        (movedFrom r.wins v → r.main = .track → q = { r with
          wins := v, main := .acquire, link := .none
          conv := { r.conv with run := 0, deadline := 0, expiry := 0, echoFree := false }
          notes := withKind .searchDone (withDetail w.settings.policy (.main .track .acquire w.stamp) r.notes) }) ∧
        (movedFrom r.wins v → r.main ≠ .track → q = { r with
          wins := v, link := .none, notes := withKind .searchDone r.notes
          conv := { r.conv with
            run := 0, echoFree := false
            observeConverged := if r.main = .observe then false else r.conv.observeConverged } }) ∧
        (¬movedFrom r.wins v → q = { r with
          wins := v, link := .none, notes := withKind .searchDone r.notes, conv := { r.conv with echoFree := false } })

/-- SEARCH_FAILURE, at the boundary that ends the 512th block of a search with fewer than 64 qualifying blocks, or just before that
boundary is taken (then after the unit's own work of the block, the model's choice: log 17): SEARCH_FAILED is raised, the link becomes
NONE, the unit takes the head of the queue or becomes IDLE, and nothing else of the record or the part changes. -/
def Obligations.SearchFailure : Prop :=
  ∀ (s : State) (u : Nat) (un₀ un : SearchUnit) (r : Record), searchSafe (settle s) = true →
    tget u (settle s).units = some un₀ → (8 ≤ s.phase → un₀.begun = true) →
    un = (if 8 ≤ s.phase then (settle s).unitEnd un₀ else un₀) → 512 ≤ un.blocks → un.qual < 64 →
    (settle s).rec? un₀.ctx = some r →
    ∃ t, takes (.searchFailure u) s t ∧ t.rec? un₀.ctx = some { r with link := .none, notes := withKind .searchFailed r.notes } ∧
      searchEnded un₀.ctx (.searching u) (decide (s.phase < 8)) (settle s) t ∧
      pulses (!hasKind r.notes.kinds .searchFailed) (routeOf r.notes.routing .searchFailed) (settle s) t ∧ t.due = [] ∧
      onlyRecords (settle s) t

/-! ### Control link -/

/-- The command messages, by the tables of R190: each command's code and the layout of its body; and the fields that a SET PROFILE body
is read as, the ignored bits of bytes 4 and 45 apart. Decoding the message that encodes a link command gives the command back, every
operand at every value its field holds. -/
def Obligations.MessageRoundTrip : Prop :=
  (∀ (i : Instr) (bytes : List Byte), wellFormed i = true → encodeMessage i = some bytes → decodeMessage bytes = .ok i) ∧
  (∀ (h s a b c d e : Byte) (f : ProfileMsg) (coeffs : List Coeff), coeffs.length = 16 →
    let is := fun (i : Instr) (code : Nat) (body : List Byte) => encodeMessage i = some (message code body)
    is (.bind h s a b) 0x01 [h, s, a, b] ∧ is (.retire h s) 0x02 [h, s] ∧ is (.engage h s) 0x03 [h, s] ∧ is (.hold h s) 0x04 [h, s] ∧
    is (.resume h s) 0x05 [h, s] ∧ is (.restore h s) 0x06 [h, s] ∧ is (.search h s) 0x07 [h, s] ∧ is (.query h s) 0x08 [h, s] ∧
    is (.amendSpan h s a) 0x10 [h, s, a] ∧ is (.amendWindows h s a b c d) 0x11 [h, s, a, b, c, d] ∧
    is (.amendProfile h s a) 0x12 [h, s, a] ∧ is (.readTaps h s a b) 0x13 [h, s, a, b] ∧
    is (.writeTaps h s a b coeffs) 0x14 ([h, s, a, b] ++ (coeffs.map fun k => twoBytes k.toNat).flatten) ∧ is .readPool 0x15 [] ∧
    is (.setProfile a f) 0x20 (profileLayout a f) ∧ is (.readProfile a) 0x21 [a] ∧
    is (.configure a b c d e) 0x30 [a, b, c, d, e] ∧ is .readConfig 0x31 [] ∧ is (.resetHighway h) 0x32 [h] ∧
    is .resetStamp 0x33 [] ∧ is .fetchNotice 0x34 []) ∧
  ∀ body : List Byte, body.length = 48 → ∃ f : ProfileMsg,
    decodeMessage (message 0x20 body) = .ok (.setProfile (body.getD 0 0) f) ∧
    profileLayout (body.getD 0 0) f = (body.set 4 (body.getD 4 0 &&& 0x0F#8)).set 45 (body.getD 45 0 &&& 0x03#8)

/-- The checks of R176, in order, on a command message: LENGTH, FRAMING, CHECK, UNKNOWN, LENGTH, each refusal leaving every part of the
state but the response buffer and the bytes sent as it was; a message that passes all five has the effect of its command, whatever
bytes are clocked after its check byte, and a byte cut short is not counted. -/
def Obligations.LinkChecks : Prop :=
  ∀ (code : Byte) (tail : List Byte) (n : Byte) (bits : Nat) (s : State), code ≠ 0x80#8 →
    let bytes := code :: n :: tail
    let refusal := fun st => takes (.commandMessage bytes bits) s (refuses bytes.length st s)
    let whole := n.toNat ≤ 48 ∧ n.toNat + 3 ≤ bytes.length
    let checked := whole ∧ ((bytes.take (n.toNat + 3)).map fun b => b.toNat).sum % 256 = 255
    takes (.commandMessage [code] bits) s (refuses 1 .framing s) ∧ takes (.commandMessage [] bits) s s ∧
    (48 < n.toNat → refusal .length) ∧
    (n.toNat ≤ 48 → bytes.length < n.toNat + 3 → refusal .framing) ∧
    (whole → ¬checked → refusal .check) ∧
    (checked → tget code.toNat bodyLengths = none → refusal .unknown) ∧
    (∀ k, checked → tget code.toNat bodyLengths = some k → n.toNat ≠ k → refusal .length) ∧
    (checked → tget code.toNat bodyLengths = some n.toNat → ∃ i t, decodeMessage bytes = .ok i ∧
      wellFormed i = true ∧ takes i s t ∧
      takes (.commandMessage bytes bits) s { t with linkOut := List.replicate bytes.length 0xFF#8 })

/-- READ sends 0xFF and then the buffered response: status, flags, body length, body, and a check byte with which these sum to 255 modulo
256, cut off where the transaction ends or filled up with 0xFF; when all of it was clocked out the buffer becomes empty, and
otherwise nothing but the bytes sent changes. An empty buffer sends NONE with no flags and no body, and stays empty. The codes that
responses carry are those of the tables of R190. -/
def Obligations.ReadTransaction : Prop :=
  (∀ (n bits : Nat) (s : State),
     let p := s.resp.getD { status := .none, overrun := false, clamped := false, shortened := false, already := false, body := [] }
     let bit := fun (b : Bool) (w : Nat) => if b then w else 0
     ∃ check : Byte,
       let out := [p.status.code, BitVec.ofNat 8 (bit p.overrun 1 + bit p.clamped 2 + bit p.shortened 4 + bit p.already 8),
         BitVec.ofNat 8 p.body.length] ++ p.body ++ [check]
       ((out.map fun b => b.toNat).sum) % 256 = 255 ∧
       takes (.read n bits) s { s with
         linkOut := 0xFF#8 :: ((List.range n).map fun k => out.getD k 0xFF#8)
         resp := if p.body.length + 4 ≤ n then none else s.resp }) ∧
  [Status.ok, .none, .check, .framing, .length, .unknown].map Status.code = [0x00, 0x01, 0x10, 0x11, 0x12, 0x13] ∧
  [Status.range, .bound, .unbound, .noRoom, .noProfile, .state, .highwayOff, .inUse, .overlap].map Status.code =
    [0x20, 0x21, 0x22, 0x23, 0x24, 0x25, 0x26, 0x27, 0x28] ∧
  [MainState.observe, .acquire, .track, .held, .cut].map MainState.code = [1, 2, 3, 4, 5] ∧
  [ToneSub.none, .nlpOff, .bypass].map ToneSub.code = [0, 1, 2] ∧
  [GateState.idle, .far, .near, .double].map GateState.code = [0, 1, 2, 3] ∧
  [Band.sound, .warned, .suspect].map Band.code = [0, 1, 2] ∧
  [SearchLink.none, .queued, .searching 0, .searching 1, .searching 2, .searching 3].map SearchLink.code =
    [0x00, 0x01, 0x10, 0x11, 0x12, 0x13] ∧
  [Kind.converged, .slow, .searchDone, .searchFailed, .warned, .cut, .restored, .tone, .level].map Kind.bit =
    [0, 1, 2, 3, 4, 5, 6, 7, 8] ∧
  ∀ (w : BitVec 18) (k : Kind), routeOf w k =
    match w.toNat / 4 ^ k.bit % 4 with
    | 0 => Route.none
    | 1 => .a
    | 2 => .b
    | _ => .both

/-- Every link command places a response, discarding an unread one with OVERRUN; and one that is refused changes nothing else of the
part, and answers with an empty body and no other flag. A command that names a key is refused RANGE for a key out of range and
UNBOUND for one that the circuit index does not hold. -/
def Obligations.Refusals : Prop :=
  (∀ (i : Instr) (s : State), (encodeMessage i).isSome = true → ∃ t p, takes i s t ∧ t.resp = some p ∧ p.overrun = s.resp.isSome ∧
     (p.status ≠ .ok → p.body = [] ∧ p.clamped = false ∧ p.shortened = false ∧ p.already = false ∧
       { t with resp := s.resp, linkOut := s.linkOut } = settle s)) ∧
  (∀ (i : Instr) (hw slot : Byte) (s : State),
     i ∈ [.retire hw slot, .engage hw slot, .hold hw slot, .resume hw slot, .restore hw slot, .search hw slot, .query hw slot] ∨
     (∃ n, i = .amendSpan hw slot n) ∨ (∃ a b c d, i = .amendWindows hw slot a b c d) ∨ (∃ a b, i = .readTaps hw slot a b) ∨
     (∃ a b l, i = .writeTaps hw slot a b l) ∨ (∃ p : Byte, p.toNat < 16 ∧ i = .amendProfile hw slot p) →
     ∃ t p, takes i s t ∧ t.resp = some p ∧
       (8 ≤ hw.toNat ∨ 64 ≤ slot.toNat → p.status = .range) ∧
       (hw.toNat < 8 → slot.toNat < 64 → tget (64 * hw.toNat + slot.toNat) (settle s).index = none → p.status = .unbound))

/-! ### Circuit records -/

/-- A BIND that passes every check fills the lowest VACANT context with the fields of R6 to R13, gives it min(W0, span) segments from the
head of the free list, or all that are free when that is fewer and at least min_seg, sets their coefficients to 0, places the first window
at B0 pulled back into the span, adds the index entry, raises the profile's in-use count, and requests a search unless told not to. The
model's choices are that the record's copy of the routing is that of its profile at the BIND (log 14), and that a highway enabled in this
very frame passes as enabled (log 24). -/
def Obligations.BindAccepted : Prop :=
  ∀ (hw slot profile flags : Byte) (s : State) (p c : Nat),
    let w := settle s
    let f := w.profile p
    let fits := fun g : Profile => g.matchEnable = true ∧ (∀ i, i < 8 → g.hwMask.getLsbD i = true → hw.getLsbD i = g.selHw.getLsbD i) ∧
      ∀ i, i < 8 → g.slotMask.getLsbD i = true → slot.getLsbD i = g.selSlot.getLsbD i
    let n := min f.bindTime.w0 f.bindTime.span
    hw.toNat < 8 → slot.toNat < 64 → w.enabled hw.toNat = true → tget (64 * hw.toNat + slot.toNat) w.index = none →
    (profile.toNat < 16 ∧ p = profile.toNat ∨
      profile = 0xFF#8 ∧ p < 16 ∧ fits (w.profile p) ∧ ∀ q, q < p → ¬fits (w.profile q)) →
    c < 384 → w.rec? c = none → (∀ d, d < c → w.rec? d ≠ none) → profileFits f = true →
    (n ≤ w.free.length ∨ f.bindTime.minSeg ≤ w.free.length) →
    let g := min n w.free.length
    let base := if f.bindTime.b0 + g ≤ f.bindTime.span then f.bindTime.b0 else f.bindTime.span - g
    let window : Window := { base := base, limit := base + g - 1, segs := w.free.take g }
    let silent : ToneDir := { acc1 := 0, acc2 := 0, energy := 0, prev := none, run := 0, gap := 0 }
    let r : Record := {
      id := { hw := hw.toNat, slot := slot.toNat, profile := p, bindStamp := w.stamp, span := f.bindTime.span }
      wins := { first := window, second := none, shortened := decide (w.free.length < n) }
      main := if flags.getLsbD 0 then .observe else .acquire
      conv := { run := 0, deadline := 0, expiry := 0, convergedOnce := false, observeConverged := false, echoFree := false }
      meas := { px := 0, es := 0, ee := 0, ef := 0 }
      gate := { state := .idle, far := 0, near := 0 }
      resid := { nf := 64, rise := 0, noise := BitVec.ofNat 16 (c + 1) }
      tone := { sub := .none, rx := silent, tx := silent, reversal := false, release := 0, blocks := 0 }
      div := { count := 0, band := .sound, quiet := 0 }
      lev := { rx := { gain := clampNat f.rx.g0 f.rx.gmin f.rx.gmax, avg := 0, limit := 0 }
               tx := { gain := clampNat f.tx.g0 f.tx.gmin f.tx.gmax, avg := 0, limit := 0 } }
      link := .none, skip := 0
      notes := { kinds := 0, detail := none, lost := false, routing := f.routing }
      blk := { started := false, worked := true, model := [], sIn := [], resid := [], ref := [] } }
    ∃ (pool : List (Nat × List Coeff)) (u : State) (q : Record),
      (∀ x, segRead pool x = if x ∈ w.free.take g then List.replicate 16 0 else segRead w.pool x) ∧
      (let v := { w with
        ctxs := tset c r w.ctxs, index := tset (64 * hw.toNat + slot.toNat) c w.index, free := w.free.drop g, pool := pool
        profiles := tset p { f with inUse := f.inUse + 1 } w.profiles }
      if flags.getLsbD 1 = false ∧ f.bindTime.searchAtBind = true then requested c r false v u else u = v) ∧
      u.rec? c = some q ∧
      takes (.bind hw slot profile flags) s (responds 7 false (decide (w.free.length < n)) false
        (twoBytes c ++ [BitVec.ofNat 8 p, BitVec.ofNat 8 g, BitVec.ofNat 8 base, BitVec.ofNat 8 window.limit,
          BitVec.ofNat 8 f.bindTime.span, if flags.getLsbD 0 then 1 else 2, q.link.code]) u)

/-- The refusals of BIND, in the order of R16; each changes nothing but the response buffer. That a highway which a CONFIGURE of this
very frame has enabled or disabled counts as newly set for HIGHWAY_OFF is the model's choice (log 24). -/
def Obligations.BindRefused : Prop :=
  ∀ (hw slot profile flags : Byte) (s : State),
    let w := settle s
    let fits := fun g : Profile => g.matchEnable = true ∧ (∀ i, i < 8 → g.hwMask.getLsbD i = true → hw.getLsbD i = g.selHw.getLsbD i) ∧
      ∀ i, i < 8 → g.slotMask.getLsbD i = true → slot.getLsbD i = g.selSlot.getLsbD i
    let refusal := fun st => takes (.bind hw slot profile flags) s (refuses 7 st w)
    let inRange := hw.toNat < 8 ∧ slot.toNat < 64 ∧ (profile.toNat < 16 ∨ profile = 0xFF#8)
    let unboundKey := inRange ∧ w.enabled hw.toNat = true ∧ tget (64 * hw.toNat + slot.toNat) w.index = none
    let chosen := fun p => profile.toNat < 16 ∧ p = profile.toNat ∨
      profile = 0xFF#8 ∧ p < 16 ∧ fits (w.profile p) ∧ ∀ q, q < p → ¬fits (w.profile q)
    (¬inRange → refusal .range) ∧
    (inRange → w.enabled hw.toNat = false → refusal .highwayOff) ∧
    (inRange → w.enabled hw.toNat = true → tget (64 * hw.toNat + slot.toNat) w.index ≠ none → refusal .bound) ∧
    (unboundKey → profile = 0xFF#8 → (∀ p, p < 16 → ¬fits (w.profile p)) → refusal .noProfile) ∧
    ∀ p, unboundKey → chosen p →
      (∀ c, c < 384 → w.rec? c ≠ none) ∨
        (w.free.length < min (w.profile p).bindTime.w0 (w.profile p).bindTime.span ∧
          w.free.length < (w.profile p).bindTime.minSeg) →
      refusal .noRoom

/-- RETIRE ends the record's search, returns its segments to the tail of the free list with their coefficients as they are, removes the
index entry, lowers the profile's in-use count and leaves the context VACANT; no other record changes but in the link of one whose
search so starts. -/
def Obligations.Retire : Prop :=
  ∀ (hw slot : Byte) (s : State) (c : Nat) (r : Record), holdsKey (settle s) hw slot c r → searchSafe (settle s) = true →
    indexSafe (settle s) = true →
    let w := settle s
    let f := w.profile r.id.profile
    ∃ t, takes (.retire hw slot) s (responds 5 false false false (twoBytes c ++ [BitVec.ofNat 8 r.segCount]) t) ∧
      t.rec? c = none ∧ t.index = tdel (64 * hw.toNat + slot.toNat) w.index ∧ t.free = w.free ++ r.wins.segs ∧
      t.profiles = tset r.id.profile { f with inUse := f.inUse - 1 } w.profiles ∧ searchEnded c r.link false w t ∧
      { t with ctxs := w.ctxs, index := w.index, free := w.free, profiles := w.profiles, queue := w.queue, units := w.units } = w

/-- ENGAGE takes OBSERVE to TRACK when observe-converged is set and to ACQUIRE otherwise; RESUME takes HELD, at a count below 256, to TRACK
when converged-once is set and to ACQUIRE otherwise; each with the effects of R15 and the new state in the response. In any other
state they are refused STATE. -/
def Obligations.EngageAndResume : Prop :=
  ∀ (hw slot : Byte) (s : State) (c : Nat) (r : Record), holdsKey (settle s) hw slot c r →
    let w := settle s
    let moved := fun (new : MainState) (conv : ConvGroup) =>
      let q := { r with main := new, conv := conv, notes := withDetail w.settings.policy (.main r.main new w.stamp) r.notes }
      responds 5 false false false [new.code] { w with ctxs := tset c q w.ctxs }
    (r.main = .observe → r.conv.observeConverged = true → takes (.engage hw slot) s
      (moved .track { r.conv with convergedOnce := true, observeConverged := false })) ∧
    (r.main = .observe → r.conv.observeConverged = false → takes (.engage hw slot) s
      (moved .acquire { r.conv with run := 0, deadline := 0, expiry := 0 })) ∧
    (r.main ≠ .observe → takes (.engage hw slot) s (refuses 5 .state w)) ∧
    (r.main = .held → r.div.count < 256 → r.conv.convergedOnce = true → takes (.resume hw slot) s (moved .track r.conv)) ∧
    (r.main = .held → r.div.count < 256 → r.conv.convergedOnce = false → takes (.resume hw slot) s
      (moved .acquire { r.conv with run := 0, deadline := 0, expiry := 0 })) ∧
    (r.main ≠ .held ∨ 256 ≤ r.div.count → takes (.resume hw slot) s (refuses 5 .state w))

/-- HOLD takes OBSERVE, ACQUIRE, TRACK and CUT to HELD and is refused STATE in HELD: any search is ended, the quiet count set to 0, a
detail record written; coefficients, windows, the divergence count and band and, but for observe-converged on leaving OBSERVE, the
convergence group are kept. -/
def Obligations.Hold : Prop :=
  ∀ (hw slot : Byte) (s : State) (c : Nat) (r : Record), holdsKey (settle s) hw slot c r → searchSafe (settle s) = true →
    let w := settle s
    (r.main = .held → takes (.hold hw slot) s (refuses 5 .state w)) ∧
    (r.main ≠ .held → ∃ t, takes (.hold hw slot) s (responds 5 false false false [4] t) ∧
      t.rec? c = some { r with
        main := .held, link := .none, div := { r.div with quiet := 0 }
        conv := { r.conv with observeConverged := if r.main = .observe then false else r.conv.observeConverged }
        notes := withDetail w.settings.policy (.main r.main .held w.stamp) r.notes } ∧
      searchEnded c r.link false w t ∧ { t with ctxs := w.ctxs, queue := w.queue, units := w.units } = w)

/-- RESTORE takes CUT and HELD to ACQUIRE with the divergence group and the convergence group set to 0, every coefficient of the windows 0
and a search requested; its response carries the main state and the search link. In OBSERVE, ACQUIRE and TRACK it is refused STATE.
SEARCH requests a search in OBSERVE, ACQUIRE and TRACK; with a search queued or running it changes nothing and answers ALREADY; in
HELD and CUT it is refused STATE. -/
def Obligations.RestoreAndSearch : Prop :=
  (∀ (hw slot : Byte) (s : State) (c : Nat) (r : Record), holdsKey (settle s) hw slot c r →
     let w := settle s
     (r.main = .observe ∨ r.main = .acquire ∨ r.main = .track → takes (.restore hw slot) s (refuses 5 .state w)) ∧
     (r.main = .cut ∨ r.main = .held → ∃ (pool : List (Nat × List Coeff)) (u : State) (q : Record),
       let r' := { r with
         main := .acquire, div := { count := 0, band := .sound, quiet := 0 }
         conv := { run := 0, deadline := 0, expiry := 0, convergedOnce := false, observeConverged := false, echoFree := false }
         notes := withDetail w.settings.policy (.main r.main .acquire w.stamp) r.notes }
       (∀ x, segRead pool x = if x ∈ r.wins.segs then List.replicate 16 0 else segRead w.pool x) ∧
       requested c r' false { w with ctxs := tset c r' w.ctxs, pool := pool } u ∧ u.rec? c = some q ∧
       takes (.restore hw slot) s (responds 5 false false false [2, q.link.code] u))) ∧
  (∀ (hw slot : Byte) (s : State) (c : Nat) (r : Record), holdsKey (settle s) hw slot c r →
     let w := settle s
     (r.main = .held ∨ r.main = .cut → takes (.search hw slot) s (refuses 5 .state w)) ∧
     (r.main = .observe ∨ r.main = .acquire ∨ r.main = .track →
       (r.link ≠ .none → takes (.search hw slot) s (responds 5 false false true [r.link.code] w)) ∧
       (r.link = .none → ∃ u q, requested c r false w u ∧ u.rec? c = some q ∧
         takes (.search hw slot) s (responds 5 false false false [q.link.code] u))))

/-- QUERY changes no state and answers the 54-byte summary of the record, in the layout of R190; energies are saturated to 32 bits. READ
POOL changes no state and answers the free count, the number of bound contexts, the length of the search queue and the set of
searching units; every segment is free or held, so that the free count and the held segments together are 6144. -/
def Obligations.QueryAndReadPool : Prop :=
  (∀ (hw slot : Byte) (s : State) (c : Nat) (r : Record), holdsKey (settle s) hw slot c r →
     let byte := fun n : Nat => BitVec.ofNat 8 n
     let bit := fun (b : Bool) (w : Nat) => if b then w else 0
     let body :=
       twoBytes c ++ [r.main.code, byte r.id.profile] ++ twoBytes r.id.bindStamp.toNat ++
       [byte r.id.span, byte r.wins.first.base, byte r.wins.first.limit] ++
       (match r.wins.second with | none => [0, 0] | some v => [byte v.base, byte v.limit]) ++
       [byte (bit r.wins.second.isSome 1 + bit r.wins.shortened 2 + bit r.conv.convergedOnce 4 + bit r.conv.observeConverged 8 +
           bit r.conv.echoFree 16 + bit r.notes.detail.isSome 32 + bit r.notes.lost 64), byte r.conv.run] ++
       twoBytes r.conv.deadline ++ [byte r.conv.expiry] ++ fourBytes r.meas.px ++ fourBytes (min r.meas.es 4294967295) ++
       fourBytes (min r.meas.ee 4294967295) ++ fourBytes (min r.meas.ef 4294967295) ++
       [r.gate.state.code, byte r.gate.far, byte r.gate.near] ++ twoBytes r.resid.nf ++ [r.tone.sub.code] ++ twoBytes r.div.count ++
       [r.div.band.code, byte r.div.quiet] ++ twoBytes r.lev.rx.gain ++ twoBytes r.lev.tx.gain ++ twoBytes r.lev.rx.avg ++
       twoBytes r.lev.tx.avg ++ [r.link.code, byte r.skip] ++ twoBytes r.notes.kinds.toNat
     body.length = 54 ∧ takes (.query hw slot) s (responds 5 false false false body (settle s))) ∧
  (∀ s : State,
     let w := settle s
     takes .readPool s (responds 3 false false false (twoBytes w.free.length ++ twoBytes w.ctxs.length ++ twoBytes w.queue.length ++
       [BitVec.ofNat 8 ((List.range 4).map fun u => if (tget u w.units).isSome then 2 ^ u else 0).sum]) w) ∧
     (segmentsSafe w → w.free.length + (w.ctxs.map fun e => e.2.segCount).sum = 6144))

/-! ### Windows and coefficients -/

/-- AMEND SPAN sets the span, at most 64, clips both windows to it, returns the clipped segments to the tail of the free list in the order
of R29, and acts on the search: a request is made, kept, or made anew at the tail of the queue with the freed unit taking the head.
A span of 0, or one that leaves nothing of the first window, is refused RANGE. -/
def Obligations.AmendSpan : Prop :=
  ∀ (hw slot span : Byte) (s : State) (c : Nat) (r : Record), holdsKey (settle s) hw slot c r → searchSafe (settle s) = true →
    windowsFit r.id.span r.wins = true →
    let w := settle s
    let n := min span.toNat 64
    let second := r.wins.second.bind fun v =>
      if n ≤ v.base then none else some ({ v with limit := min v.limit (n - 1), segs := v.segs.take (n - v.base) } : Window)
    let wins : Windows := { r.wins with
      first := { r.wins.first with limit := min r.wins.first.limit (n - 1), segs := r.wins.first.segs.take (n - r.wins.first.base) }
      second := second }
    let back := r.wins.first.segs.drop (n - r.wins.first.base) ++
      (match r.wins.second with | none => [] | some v => v.segs.drop (n - v.base))
    let r' := { r with id := { r.id with span := n }, wins := wins }
    let v := { w with ctxs := tset c r' w.ctxs, free := w.free ++ back }
    (n = 0 ∨ n ≤ r.wins.first.base → takes (.amendSpan hw slot span) s (refuses 6 .range w)) ∧
    (r.wins.first.base < n → ∃ u q, u.rec? c = some q ∧
      takes (.amendSpan hw slot span) s (responds 6 (decide (64 < span.toNat)) false false
        ([BitVec.ofNat 8 n, BitVec.ofNat 8 wins.first.base, BitVec.ofNat 8 wins.first.limit] ++
          (match second with | none => [0, 0, 0] | some x => [1, BitVec.ofNat 8 x.base, BitVec.ofNat 8 x.limit]) ++
          [BitVec.ofNat 8 back.length, q.link.code]) u) ∧
      (r.main = .held ∨ r.main = .cut ∨ r.link = .queued → u = v) ∧
      (r.main ≠ .held → r.main ≠ .cut → r.link = .none → requested c r' false v u) ∧
      ∀ k, r.link = .searching k →
        { u with ctxs := w.ctxs, free := w.free, queue := w.queue, units := w.units } = w ∧ u.free = w.free ++ back ∧
        (w.queue = [] → q = r' ∧ u.queue = [] ∧ u.units = tset k (freshUnit c n false) (tdel k w.units) ∧ othersKept c w u) ∧
        ∀ d rest, w.queue = d :: rest → q = { r' with link := .queued } ∧ u.queue = rest ++ [c] ∧
          ∃ rd, w.rec? d = some rd ∧ u.rec? d = some { rd with link := .searching k } ∧
            u.units = tset k (freshUnit d rd.id.span false) (tdel k w.units) ∧ ∀ e, e ≠ c → e ≠ d → u.rec? e = w.rec? e)

/-- AMEND WINDOWS is refused by the checks of R36, in order; accepted, it ends any search, relocates the record in full to the windows
asked for, each tap's coefficient following the tap, and where they differ from the windows held takes the convergence of the
record back as its main state says. -/
def Obligations.AmendWindows : Prop :=
  ∀ (hw slot b1 l1 b2 l2 : Byte) (s : State) (c : Nat) (r : Record), holdsKey (settle s) hw slot c r →
    searchSafe (settle s) = true → segmentsSafe (settle s) → poolWf (settle s).pool = true →
    windowsFit r.id.span r.wins = true → r.id.span ≤ 64 →
    let w := settle s
    let second := if l2.toNat = 0 then none else some (b2.toNat, l2.toNat)
    let fits := 1 ≤ l1.toNat ∧ b1.toNat + l1.toNat ≤ r.id.span ∧ (l2.toNat = 0 ∨ b2.toNat + l2.toNat ≤ r.id.span)
    let ordered := fits ∧ (l2.toNat = 0 ∨ b1.toNat + l1.toNat - 1 < b2.toNat)
    let room := l1.toNat + l2.toNat ≤ w.free.length + r.segCount
    let refusal := fun st => takes (.amendWindows hw slot b1 l1 b2 l2) s (refuses 9 st w)
    (¬fits → refusal .range) ∧ (fits → ¬ordered → refusal .overlap) ∧ (ordered → ¬room → refusal .noRoom) ∧
    (ordered → room → ∃ t v q,
      takes (.amendWindows hw slot b1 l1 b2 l2) s (responds 9 false false false
        ([BitVec.ofNat 8 v.first.base, BitVec.ofNat 8 v.first.limit] ++
          (match v.second with | none => [0, 0, 0] | some x => [1, BitVec.ofNat 8 x.base, BitVec.ofNat 8 x.limit]) ++
          [BitVec.ofNat 8 v.segs.length, q.main.code] ++ twoBytes t.free.length) t) ∧
      relocated r.wins (b1.toNat, l1.toNat) second (tapCoeff w.pool r.wins) w t v ∧ v.shortened = false ∧
      searchEnded c r.link false w t ∧ t.rec? c = some q ∧
      { t with ctxs := w.ctxs, free := w.free, pool := w.pool, queue := w.queue, units := w.units } = w ∧
      (movedFrom r.wins v → r.main = .track → q = { r with
        wins := v, main := .acquire, link := .none, conv := { r.conv with run := 0, deadline := 0, expiry := 0 }
        notes := withDetail w.settings.policy (.main .track .acquire w.stamp) r.notes }) ∧
      (movedFrom r.wins v → r.main = .acquire → q = { r with wins := v, link := .none, conv := { r.conv with run := 0 } }) ∧
      (movedFrom r.wins v → r.main = .observe →
        q = { r with wins := v, link := .none, conv := { r.conv with run := 0, observeConverged := false } }) ∧
      (¬movedFrom r.wins v ∨ r.main = .held ∨ r.main = .cut → q = { r with wins := v, link := .none }))

/-- READ TAPS changes no state and answers the segment number, the delay of its lowest tap and its sixteen coefficients; WRITE TAPS, in
HELD alone, writes them and changes nothing else. Both are refused RANGE where the operands name no segment of the record, WRITE TAPS
after STATE. -/
def Obligations.ReadAndWriteTaps : Prop :=
  ∀ (hw slot win pos : Byte) (coeffs : List Coeff) (s : State) (c : Nat) (r : Record), holdsKey (settle s) hw slot c r →
    coeffs.length = 16 →
    let w := settle s
    let named := fun (x : Window) (g : Nat) =>
      (win.toNat = 0 ∧ x = r.wins.first ∨ win.toNat = 1 ∧ r.wins.second = some x) ∧ x.segs[pos.toNat]? = some g
    (∀ x g, named x g → takes (.readTaps hw slot win pos) s (responds 7 false false false
      (twoBytes g ++ twoBytes (16 * (x.base + pos.toNat)) ++ ((segRead w.pool g).map fun k => twoBytes k.toNat).flatten) w)) ∧
    ((∀ x g, ¬named x g) → takes (.readTaps hw slot win pos) s (refuses 7 .range w)) ∧
    (r.main ≠ .held → takes (.writeTaps hw slot win pos coeffs) s (refuses 39 .state w)) ∧
    (r.main = .held → (∀ x g, ¬named x g) → takes (.writeTaps hw slot win pos coeffs) s (refuses 39 .range w)) ∧
    (r.main = .held → ∀ x g, named x g → ∃ pool : List (Nat × List Coeff),
      (∀ k, segRead pool k = if k = g then coeffs else segRead w.pool k) ∧
      takes (.writeTaps hw slot win pos coeffs) s (responds 39 false false false (twoBytes g) { w with pool := pool }))

/-! ### Profiles -/

/-- SET PROFILE is refused by the checks of R169, in order; accepted, it replaces every field of the profile by its operand brought into
range as R170 gives, keeps the in-use count, and answers CLAMPED exactly when an operand was out of range. -/
def Obligations.SetProfile : Prop :=
  ∀ (p : Byte) (f : ProfileMsg) (s : State),
    let w := settle s
    let old := w.profile p.toNat
    let cut := fun v : BitVec 16 => min v.toNat 32767
    let segs := fun v : Byte => max 1 (min v.toNat 64)
    let level := fun (mode : BitVec 2) (l : LevelMsg) => ({
      mode := if mode.toNat = 0 then .fixed else .auto, target := cut l.target, gmin := cut l.gmin, gmax := cut l.gmax
      g0 := max (cut l.gmin) (min (cut l.g0) (cut l.gmax)) } : LevelFields)
    let bindTime : BindFields := { span := segs f.span, b0 := min f.b0.toNat 63, w0 := segs f.w0, w1 := segs f.w1
                                   twoWindows := f.twoWindows, minSeg := segs f.minSeg, searchAtBind := f.searchAtBind }
    let new : Profile := {
      selHw := BitVec.ofNat 8 f.selHw.toNat, hwMask := BitVec.ofNat 8 f.hwMask.toNat, selSlot := f.selSlot, slotMask := f.slotMask
      matchEnable := f.matchEnable, bindTime := bindTime, muAcq := max 1 f.muAcq.toNat, muTrack := max 1 f.muTrack.toNat
      delta := max 1 (min f.delta.toNat 16777216), tFar := cut f.tFar, tNear := cut f.tNear
      nlp := if f.nlp.toNat = 0 then .off else if f.nlp.toNat = 1 then .clip else .noise
      rx := level f.rxMode f.rx, tx := level f.txMode f.tx, toneEnable := f.toneEnable, wMin := f.wMin.toNat, wRel := f.wRel.toNat
      recovery := if f.recovery.toNat = 0 then .auto else if f.recovery.toNat = 1 then .holdAtCut
        else if f.recovery.toNat = 2 then .holdAfter else .stay
      routing := f.routing, inUse := old.inUse }
    let named := p.toNat < 16 ∧ f.selHw.toNat < 8 ∧ f.hwMask.toNat < 8 ∧ f.selSlot.toNat < 64 ∧ f.slotMask.toNat < 64 ∧
      f.nlp.toNat < 3 ∧ f.rxMode.toNat < 2 ∧ f.txMode.toNat < 2 ∧ cut f.rx.gmin ≤ cut f.rx.gmax ∧ cut f.tx.gmin ≤ cut f.tx.gmax
    let inSegs := fun v : Byte => 1 ≤ v.toNat ∧ v.toNat ≤ 64
    let levelIn := fun l : LevelMsg => l.target.toNat ≤ 32767 ∧ l.gmin.toNat ≤ l.g0.toNat ∧ l.g0.toNat ≤ l.gmax.toNat ∧
      l.gmax.toNat ≤ 32767
    let allIn := inSegs f.span ∧ f.b0.toNat ≤ 63 ∧ inSegs f.w0 ∧ inSegs f.w1 ∧ inSegs f.minSeg ∧ 1 ≤ f.muAcq.toNat ∧
      1 ≤ f.muTrack.toNat ∧ 1 ≤ f.delta.toNat ∧ f.delta.toNat ≤ 16777216 ∧ f.tFar.toNat ≤ 32767 ∧ f.tNear.toNat ≤ 32767 ∧
      levelIn f.rx ∧ levelIn f.tx
    (¬named → takes (.setProfile p f) s (refuses 51 .range w)) ∧
    (named → old.inUse ≠ 0 → bindTime ≠ old.bindTime → takes (.setProfile p f) s (refuses 51 .inUse w)) ∧
    (named → (old.inUse = 0 ∨ bindTime = old.bindTime) → ∃ clamped : Bool, (clamped = false ↔ allIn) ∧
      takes (.setProfile p f) s (responds 51 clamped false false (p :: twoBytes old.inUse)
        { w with profiles := tset p.toNat new w.profiles })) ∧
    (named → profileFits new = true)

/-- READ PROFILE changes no state: for a profile number of 0 to 15 it answers 50 bytes, the number, the fields as stored in the layout of
the SET PROFILE body with ignored bits 0, which when sent as one would be accepted as those fields again, and the in-use count; others
are refused RANGE.
AMEND PROFILE moves a record to another profile: its profile index changes, the old profile's in-use count falls by 1 and the new
one's rises by 1, and nothing else changes; to the profile it references it changes nothing. A number above 15 is refused RANGE. -/
def Obligations.ReadAndAmendProfile : Prop :=
  (∀ (p : Byte) (s : State),
     let w := settle s
     let f := w.profile p.toNat
     (16 ≤ p.toNat → takes (.readProfile p) s (refuses 4 .range w)) ∧
     (p.toNat < 16 → profileFits f = true → ∃ body : List Byte, body.length = 48 ∧
       (body.getD 4 0).toNat < 16 ∧ (body.getD 45 0).toNat < 4 ∧
       takes (.readProfile p) s (responds 4 false false false (body ++ twoBytes f.inUse) w) ∧
       ∃ msg, decodeMessage (0x20#8 :: 48#8 :: body ++ [255#8 - 0x20#8 - 48#8 - BitVec.ofNat 8 (body.map fun b => b.toNat).sum]) =
           .ok (.setProfile p msg) ∧
         takes (.setProfile p msg) s (responds 51 false false false (p :: twoBytes f.inUse)
           { w with profiles := tset p.toNat f w.profiles }))) ∧
  (∀ (hw slot p : Byte) (s : State) (c : Nat) (r : Record), holdsKey (settle s) hw slot c r →
     let w := settle s
     (16 ≤ p.toNat → takes (.amendProfile hw slot p) s (refuses 6 .range w)) ∧
     (p.toNat < 16 → r.id.profile = p.toNat →
       takes (.amendProfile hw slot p) s (responds 6 false false false (p :: twoBytes (w.profile p.toNat).inUse) w)) ∧
     (p.toNat < 16 → r.id.profile ≠ p.toNat → ∃ t,
       takes (.amendProfile hw slot p) s (responds 6 false false false (p :: twoBytes ((w.profile p.toNat).inUse + 1)) t) ∧
       t.ctxs = tset c { r with id := { r.id with profile := p.toNat } } w.ctxs ∧
       t.profile p.toNat = { w.profile p.toNat with inUse := (w.profile p.toNat).inUse + 1 } ∧
       t.profile r.id.profile = { w.profile r.id.profile with inUse := (w.profile r.id.profile).inUse - 1 } ∧
       (∀ k, k ≠ p.toNat → k ≠ r.id.profile → t.profile k = w.profile k) ∧
       { t with ctxs := w.ctxs, profiles := w.profiles } = w))

/-! ### Part-wide commands -/

/-- CONFIGURE is refused RANGE for a scheduling mode or stamp unit that names none, then IN_USE when it would disable a highway that holds
a bound context; accepted, it applies every setting: a highway newly enabled is SEEKING with counts 0, a disabled one OFF, one that
stays enabled runs on; the prescale count returns to 0 when the unit changes. READ CONFIG changes nothing. Both answer the settings,
a highway's state as newly set (in the frame of the CONFIGURE itself the model's choice: log 24). -/
def Obligations.ConfigureAndReadConfig : Prop :=
  ∀ (enables routing modes sched unit : Byte) (s : State),
    let w := settle s
    let named := (sched.toNat = 0 ∨ sched.toNat = 1) ∧ (unit.toNat = 1 ∨ unit.toNat = 2 ∨ unit.toNat = 4 ∨ unit.toNat = 8)
    let route := fun i => if routing.toNat / i % 4 = 0 then Route.none else if routing.toNat / i % 4 = 1 then .a
      else if routing.toNat / i % 4 = 2 then .b else .both
    let keepsBound := ∀ c r, (c, r) ∈ w.ctxs → r.id.hw < 8 → w.enabled r.id.hw = true → enables.getLsbD r.id.hw = true
    takes .readConfig s (responds 3 false false false (configReport w) w) ∧
    (¬named → takes (.configure enables routing modes sched unit) s (refuses 8 .range w)) ∧
    (named → ¬keepsBound → takes (.configure enables routing modes sched unit) s (refuses 8 .inUse w)) ∧
    (named → keepsBound → ∃ t, takes (.configure enables routing modes sched unit) s
        (responds 8 false false false (configReport t) t) ∧
      (∀ h, h < 8 → tget h t.sync = if enables.getLsbD h then
          some ((tget h w.sync).getD { sync := .seeking, good := 0, bad := 0, obs := none }) else none) ∧
      t.settings = {
        routeLost := route 1, routeBack := route 4
        modeA := if modes.getLsbD 0 then .pulsed else .latched, modeB := if modes.getLsbD 1 then .pulsed else .latched
        merge := modes.getLsbD 2, policy := if modes.getLsbD 3 then .keep else .overwrite } ∧
      t.sched = (if sched.toNat = 0 then .urgency else .index) ∧ t.stampUnit = unit.toNat ∧
      t.prescale = (if w.stampUnit = unit.toNat then w.prescale else 0) ∧
      { t with sync := w.sync, settings := w.settings, sched := w.sched, stampUnit := w.stampUnit, prescale := w.prescale } = w)

/-- RESET HIGHWAY retires every bound context of the highway in ascending order, silences the histories of its slots and no other, puts
the highway in SEEKING with counts 0 when it is enabled, and clears its pending kinds. The highway's requests leave the queue, the rest
keeping its order, and the units that searched for its contexts take as many from the head of the rest as there are, a search a unit,
or become IDLE; a unit at work for another highway keeps filter and counts. A number above 7 is refused RANGE. A
highway that a CONFIGURE of this very frame has enabled or disabled counts as newly set (the model's choice: log 24). -/
def Obligations.ResetHighway : Prop :=
  ∀ (hw : Byte) (s : State), indexSafe (settle s) = true → searchSafe (settle s) = true → usesSafe (settle s) = true →
    let w := settle s
    let gone := w.ctxs.filter fun e => e.2.id.hw = hw.toNat
    let lies := fun c => (w.rec? c).any fun r => r.id.hw = hw.toNat
    let freed := w.units.countP fun e => lies e.2.ctx
    let rest := w.queue.filter fun c => !lies c
    (8 ≤ hw.toNat → takes (.resetHighway hw) s (refuses 4 .range w)) ∧
    (hw.toNat < 8 → ∃ t, takes (.resetHighway hw) s (responds 4 false false false
        [BitVec.ofNat 8 gone.length, if w.enabled hw.toNat then 1 else 0] t) ∧
      (∀ c r, w.rec? c = some r →
        (r.id.hw = hw.toNat → t.rec? c = none ∧ tget (64 * r.id.hw + r.id.slot) t.index = none) ∧
        (r.id.hw ≠ hw.toNat → tget (64 * r.id.hw + r.id.slot) t.index = some c ∧
          (c ∉ rest.take freed → t.rec? c = some r) ∧
          (c ∈ rest.take freed → ∃ u un, tget u w.units = some un ∧ lies un.ctx = true ∧
            tget u t.units = some (freshUnit c r.id.span false) ∧ t.rec? c = some { r with link := .searching u }))) ∧
      t.queue = rest.drop freed ∧
      (∀ u, tget u w.units = none → tget u t.units = none) ∧
      (∀ u un, tget u w.units = some un →
        (lies un.ctx = false → tget u t.units = some un) ∧
        (lies un.ctx = true → tget u t.units = none ∨ ∃ c ∈ rest.take freed, (tget u t.units).any fun v => v.ctx = c)) ∧
      (∀ c, w.rec? c = none → t.rec? c = none) ∧
      t.free = w.free ++ gone.flatMap (fun e => e.2.wins.segs) ∧ searchSafe t = true ∧
      (∀ p, { t.profile p with inUse := (w.profile p).inUse } = w.profile p ∧
        (p < 16 → (t.profile p).inUse + (gone.countP fun e => e.2.id.profile = p) = (w.profile p).inUse)) ∧
      t.slots.length = w.slots.length ∧
      (∀ p, p < w.slots.length → t.slotAt p = if p / 64 = hw.toNat then { w.slotAt p with hist := [] } else w.slotAt p) ∧
      (∀ h, tget h t.sync = if h = hw.toNat ∧ w.enabled h = true then some { sync := .seeking, good := 0, bad := 0, obs := none }
        else tget h w.sync) ∧
      (∀ h, t.hwPending h = if h = hw.toNat then 0 else w.hwPending h) ∧
      { t with
        ctxs := w.ctxs, index := w.index, free := w.free, profiles := w.profiles, queue := w.queue, units := w.units
        slots := w.slots, sync := w.sync, hwKinds := w.hwKinds } = w)

/-- FETCH NOTICE returns and clears the kinds of the lowest-numbered pending highway; where none is pending, the kinds, detail record and
lost flag of the lowest-numbered pending context; with nothing pending its body is empty and nothing changes. -/
def Obligations.FetchNotice : Prop :=
  ∀ s : State, rising (settle s).ctxs = true →
    let w := settle s
    let pends := fun r : Record => r.notes.kinds ≠ 0 ∨ r.notes.detail ≠ none ∨ r.notes.lost = true
    let fetched := fun (body : List Byte) (t : State) => takes .fetchNotice s (responds 3 false false false body t)
    (∀ h, h < 8 → w.hwPending h ≠ 0 → (∀ k, k < h → w.hwPending k = 0) → ∃ t,
      fetched [1, BitVec.ofNat 8 h, BitVec.ofNat 8 (w.hwPending h).toNat] t ∧
      (∀ k, t.hwPending k = if k = h then 0 else w.hwPending k) ∧ { t with hwKinds := w.hwKinds } = w) ∧
    ((∀ h, h < 8 → w.hwPending h = 0) → (∀ c r, w.rec? c = some r → ¬pends r) → fetched [] w) ∧
    ∀ c r, (∀ h, h < 8 → w.hwPending h = 0) → w.rec? c = some r → pends r →
      (∀ d q, d < c → w.rec? d = some q → ¬pends q) →
      let lost := if r.notes.lost then 4 else 0
      let detail : List Byte := match r.notes.detail with
        | none => [BitVec.ofNat 8 lost, 0, 0, 0, 0]
        | some (.main a b st) => [BitVec.ofNat 8 (1 + lost), a.code, b.code] ++ twoBytes st.toNat
        | some (.tone a b st) => [BitVec.ofNat 8 (3 + lost), a.code, b.code] ++ twoBytes st.toNat
      fetched ([2] ++ twoBytes c ++ [BitVec.ofNat 8 r.id.hw, BitVec.ofNat 8 r.id.slot] ++ twoBytes r.notes.kinds.toNat ++ detail)
        { w with ctxs := tset c { r with notes := { r.notes with kinds := 0, detail := none, lost := false } } w.ctxs }

/-! ### What every step keeps -/

/-- The part is as the spec says it is at every moment right after power-on. -/
def Obligations.ResetIsSafe : Prop := safe State.reset

/-- Every step keeps each of the 6144 segments on the free list once or in one window of one bound context. -/
def Obligations.SegmentsKept : Prop := ∀ s t : State, segmentsSafe s → step s = .next t → segmentsSafe t

/-- Every step keeps the circuit index exact: it maps a key to a context exactly when that context is bound and holds the key. No step but
POWER_ON changes the key or the bind stamp of a context that is bound before and after it. -/
def Obligations.IndexKept : Prop :=
  (∀ s t : State, indexSafe s = true → step s = .next t → indexSafe t = true) ∧
  (∀ (i : Instr) (s t : State) (c : Nat) (r q : Record), i ≠ .powerOn → takes i s t → s.rec? c = some r → t.rec? c = some q →
     q.id.hw = r.id.hw ∧ q.id.slot = r.id.slot ∧ q.id.bindStamp = r.id.bindStamp)

/-- Every step keeps search links, queue and units in agreement: no context is both queued or searching and HELD or CUT, none is queued
twice, and with an entry in the queue all four units are searching. -/
def Obligations.SearchesKept : Prop := ∀ s t : State, searchSafe s = true → step s = .next t → searchSafe t = true

/-- Every step keeps every record's windows in its span, in order, with one segment a position. -/
def Obligations.WindowsKept : Prop :=
  ∀ s t : State, windowsSafe s = true → profilesSafe s = true → segmentsSafe s → searchSafe s = true → step s = .next t →
    windowsSafe t = true

/-- Every step keeps the band of every record that of its divergence count, and a count of 256 in CUT and HELD alone. -/
def Obligations.DivergenceKept : Prop := ∀ s t : State, divSafe s = true → step s = .next t → divSafe t = true

/-- Every step keeps these fields of every record in the ranges of R8 to R13: run, deadline and expiry counts, Px and the block energies,
hangovers, with the gate state that of both, noise floor, rise counter and noise generator, tonal runs, gap and release counts and
the blocks of the tone window, level averages and limit runs, and the skip count. A limit run stands at 1000 only while its LEVEL is
due (the model's choice: log 4). The windows and the block in progress are premises, as deadline and energies rest on them. -/
def Obligations.RangesKept : Prop :=
  ∀ s t : State, rangesSafe s = true → windowsSafe s = true → blockSafe s = true → timeSafe s = true → step s = .next t →
    rangesSafe t = true

/-- Every step keeps the sixteen profiles in the ranges of R166 and R167, where every record names one of them; and with them every gain
at most 32767. -/
def Obligations.ProfilesAndGainsKept : Prop :=
  (∀ s t : State, profilesSafe s = true → usesSafe s = true → step s = .next t → profilesSafe t = true) ∧
  (∀ s t : State, gainsSafe s = true → profilesSafe s = true → step s = .next t → gainsSafe t = true)

/-- Every step keeps each profile's in-use count the number of bound contexts that reference it. -/
def Obligations.UsesKept : Prop := ∀ s t : State, usesSafe s = true → step s = .next t → usesSafe t = true

/-- Every step keeps the sync counts as the sync state says and every bound context on an enabled highway; and the pool's canonical form,
the stamp and block counts in range, the slots' histories as they are kept, and the alert lines as their modes and merge allow. -/
def Obligations.FormsKept : Prop :=
  (∀ s t : State, syncSafe s = true → step s = .next t → syncSafe t = true) ∧
  (∀ s t : State, poolWf s.pool = true → timeSafe s = true → slotsSafe s = true → linesSafe s = true → step s = .next t →
     poolWf t.pool = true ∧ timeSafe t = true ∧ slotsSafe t = true ∧ linesSafe t = true)

/-- Every step keeps one residual and one sample of each kind for each frame worked so far of the block, in every record and search unit
that worked in all of them, and lets no event of a boundary or end of a search wait past the next frame (the model's choices: log 4,
7). -/
def Obligations.BlocksKept : Prop :=
  ∀ s t : State, blockSafe s = true → searchSafe s = true → step s = .next t → blockSafe t = true
end

