-- ==== Sys2Proof/Laws/State.lean ====
section
/-! SUPPORT. One lemma per field per update of State, true by rfl. -/

namespace Sys2Proof.Machine

/-! ### State.setRec -/

@[simp] theorem State.setRec_pending (c : Nat) (r : Record) (s : State) : (s.setRec c r).pending = s.pending := rfl
@[simp] theorem State.setRec_phase (c : Nat) (r : Record) (s : State) : (s.setRec c r).phase = s.phase := rfl
@[simp] theorem State.setRec_blockCounter (c : Nat) (r : Record) (s : State) : (s.setRec c r).blockCounter = s.blockCounter := rfl
@[simp] theorem State.setRec_sync (c : Nat) (r : Record) (s : State) : (s.setRec c r).sync = s.sync := rfl
@[simp] theorem State.setRec_hwKinds (c : Nat) (r : Record) (s : State) : (s.setRec c r).hwKinds = s.hwKinds := rfl
@[simp] theorem State.setRec_stamp (c : Nat) (r : Record) (s : State) : (s.setRec c r).stamp = s.stamp := rfl
@[simp] theorem State.setRec_prescale (c : Nat) (r : Record) (s : State) : (s.setRec c r).prescale = s.prescale := rfl
@[simp] theorem State.setRec_stampUnit (c : Nat) (r : Record) (s : State) : (s.setRec c r).stampUnit = s.stampUnit := rfl
@[simp] theorem State.setRec_slots (c : Nat) (r : Record) (s : State) : (s.setRec c r).slots = s.slots := rfl
@[simp] theorem State.setRec_ctxs (c : Nat) (r : Record) (s : State) : (s.setRec c r).ctxs = tset c r s.ctxs := rfl
@[simp] theorem State.setRec_index (c : Nat) (r : Record) (s : State) : (s.setRec c r).index = s.index := rfl
@[simp] theorem State.setRec_pool (c : Nat) (r : Record) (s : State) : (s.setRec c r).pool = s.pool := rfl
@[simp] theorem State.setRec_free (c : Nat) (r : Record) (s : State) : (s.setRec c r).free = s.free := rfl
@[simp] theorem State.setRec_sched (c : Nat) (r : Record) (s : State) : (s.setRec c r).sched = s.sched := rfl
@[simp] theorem State.setRec_pointer (c : Nat) (r : Record) (s : State) : (s.setRec c r).pointer = s.pointer := rfl
@[simp] theorem State.setRec_units (c : Nat) (r : Record) (s : State) : (s.setRec c r).units = s.units := rfl
@[simp] theorem State.setRec_queue (c : Nat) (r : Record) (s : State) : (s.setRec c r).queue = s.queue := rfl
@[simp] theorem State.setRec_profiles (c : Nat) (r : Record) (s : State) : (s.setRec c r).profiles = s.profiles := rfl
@[simp] theorem State.setRec_resp (c : Nat) (r : Record) (s : State) : (s.setRec c r).resp = s.resp := rfl
@[simp] theorem State.setRec_linkOut (c : Nat) (r : Record) (s : State) : (s.setRec c r).linkOut = s.linkOut := rfl
@[simp] theorem State.setRec_settings (c : Nat) (r : Record) (s : State) : (s.setRec c r).settings = s.settings := rfl
@[simp] theorem State.setRec_inForce (c : Nat) (r : Record) (s : State) : (s.setRec c r).inForce = s.inForce := rfl
@[simp] theorem State.setRec_lineA (c : Nat) (r : Record) (s : State) : (s.setRec c r).lineA = s.lineA := rfl
@[simp] theorem State.setRec_lineB (c : Nat) (r : Record) (s : State) : (s.setRec c r).lineB = s.lineB := rfl
@[simp] theorem State.setRec_due (c : Nat) (r : Record) (s : State) : (s.setRec c r).due = s.due := rfl

/-! ### State.setProfile -/

@[simp] theorem State.setProfile_pending (p : Nat) (f : Profile) (s : State) : (s.setProfile p f).pending = s.pending := rfl
@[simp] theorem State.setProfile_phase (p : Nat) (f : Profile) (s : State) : (s.setProfile p f).phase = s.phase := rfl
@[simp] theorem State.setProfile_blockCounter (p : Nat) (f : Profile) (s : State) : (s.setProfile p f).blockCounter = s.blockCounter := rfl
@[simp] theorem State.setProfile_sync (p : Nat) (f : Profile) (s : State) : (s.setProfile p f).sync = s.sync := rfl
@[simp] theorem State.setProfile_hwKinds (p : Nat) (f : Profile) (s : State) : (s.setProfile p f).hwKinds = s.hwKinds := rfl
@[simp] theorem State.setProfile_stamp (p : Nat) (f : Profile) (s : State) : (s.setProfile p f).stamp = s.stamp := rfl
@[simp] theorem State.setProfile_prescale (p : Nat) (f : Profile) (s : State) : (s.setProfile p f).prescale = s.prescale := rfl
@[simp] theorem State.setProfile_stampUnit (p : Nat) (f : Profile) (s : State) : (s.setProfile p f).stampUnit = s.stampUnit := rfl
@[simp] theorem State.setProfile_slots (p : Nat) (f : Profile) (s : State) : (s.setProfile p f).slots = s.slots := rfl
@[simp] theorem State.setProfile_ctxs (p : Nat) (f : Profile) (s : State) : (s.setProfile p f).ctxs = s.ctxs := rfl
@[simp] theorem State.setProfile_index (p : Nat) (f : Profile) (s : State) : (s.setProfile p f).index = s.index := rfl
@[simp] theorem State.setProfile_pool (p : Nat) (f : Profile) (s : State) : (s.setProfile p f).pool = s.pool := rfl
@[simp] theorem State.setProfile_free (p : Nat) (f : Profile) (s : State) : (s.setProfile p f).free = s.free := rfl
@[simp] theorem State.setProfile_sched (p : Nat) (f : Profile) (s : State) : (s.setProfile p f).sched = s.sched := rfl
@[simp] theorem State.setProfile_pointer (p : Nat) (f : Profile) (s : State) : (s.setProfile p f).pointer = s.pointer := rfl
@[simp] theorem State.setProfile_units (p : Nat) (f : Profile) (s : State) : (s.setProfile p f).units = s.units := rfl
@[simp] theorem State.setProfile_queue (p : Nat) (f : Profile) (s : State) : (s.setProfile p f).queue = s.queue := rfl
@[simp] theorem State.setProfile_profiles (p : Nat) (f : Profile) (s : State) : (s.setProfile p f).profiles = tset p f s.profiles := rfl
@[simp] theorem State.setProfile_resp (p : Nat) (f : Profile) (s : State) : (s.setProfile p f).resp = s.resp := rfl
@[simp] theorem State.setProfile_linkOut (p : Nat) (f : Profile) (s : State) : (s.setProfile p f).linkOut = s.linkOut := rfl
@[simp] theorem State.setProfile_settings (p : Nat) (f : Profile) (s : State) : (s.setProfile p f).settings = s.settings := rfl
@[simp] theorem State.setProfile_inForce (p : Nat) (f : Profile) (s : State) : (s.setProfile p f).inForce = s.inForce := rfl
@[simp] theorem State.setProfile_lineA (p : Nat) (f : Profile) (s : State) : (s.setProfile p f).lineA = s.lineA := rfl
@[simp] theorem State.setProfile_lineB (p : Nat) (f : Profile) (s : State) : (s.setProfile p f).lineB = s.lineB := rfl
@[simp] theorem State.setProfile_due (p : Nat) (f : Profile) (s : State) : (s.setProfile p f).due = s.due := rfl

/-! ### State.setHighway -/

@[simp] theorem State.setHighway_pending (h : Nat) (y : Highway) (s : State) : (s.setHighway h y).pending = s.pending := rfl
@[simp] theorem State.setHighway_phase (h : Nat) (y : Highway) (s : State) : (s.setHighway h y).phase = s.phase := rfl
@[simp] theorem State.setHighway_blockCounter (h : Nat) (y : Highway) (s : State) : (s.setHighway h y).blockCounter = s.blockCounter := rfl
@[simp] theorem State.setHighway_sync (h : Nat) (y : Highway) (s : State) : (s.setHighway h y).sync = tset h y s.sync := rfl
@[simp] theorem State.setHighway_hwKinds (h : Nat) (y : Highway) (s : State) : (s.setHighway h y).hwKinds = s.hwKinds := rfl
@[simp] theorem State.setHighway_stamp (h : Nat) (y : Highway) (s : State) : (s.setHighway h y).stamp = s.stamp := rfl
@[simp] theorem State.setHighway_prescale (h : Nat) (y : Highway) (s : State) : (s.setHighway h y).prescale = s.prescale := rfl
@[simp] theorem State.setHighway_stampUnit (h : Nat) (y : Highway) (s : State) : (s.setHighway h y).stampUnit = s.stampUnit := rfl
@[simp] theorem State.setHighway_slots (h : Nat) (y : Highway) (s : State) : (s.setHighway h y).slots = s.slots := rfl
@[simp] theorem State.setHighway_ctxs (h : Nat) (y : Highway) (s : State) : (s.setHighway h y).ctxs = s.ctxs := rfl
@[simp] theorem State.setHighway_index (h : Nat) (y : Highway) (s : State) : (s.setHighway h y).index = s.index := rfl
@[simp] theorem State.setHighway_pool (h : Nat) (y : Highway) (s : State) : (s.setHighway h y).pool = s.pool := rfl
@[simp] theorem State.setHighway_free (h : Nat) (y : Highway) (s : State) : (s.setHighway h y).free = s.free := rfl
@[simp] theorem State.setHighway_sched (h : Nat) (y : Highway) (s : State) : (s.setHighway h y).sched = s.sched := rfl
@[simp] theorem State.setHighway_pointer (h : Nat) (y : Highway) (s : State) : (s.setHighway h y).pointer = s.pointer := rfl
@[simp] theorem State.setHighway_units (h : Nat) (y : Highway) (s : State) : (s.setHighway h y).units = s.units := rfl
@[simp] theorem State.setHighway_queue (h : Nat) (y : Highway) (s : State) : (s.setHighway h y).queue = s.queue := rfl
@[simp] theorem State.setHighway_profiles (h : Nat) (y : Highway) (s : State) : (s.setHighway h y).profiles = s.profiles := rfl
@[simp] theorem State.setHighway_resp (h : Nat) (y : Highway) (s : State) : (s.setHighway h y).resp = s.resp := rfl
@[simp] theorem State.setHighway_linkOut (h : Nat) (y : Highway) (s : State) : (s.setHighway h y).linkOut = s.linkOut := rfl
@[simp] theorem State.setHighway_settings (h : Nat) (y : Highway) (s : State) : (s.setHighway h y).settings = s.settings := rfl
@[simp] theorem State.setHighway_inForce (h : Nat) (y : Highway) (s : State) : (s.setHighway h y).inForce = s.inForce := rfl
@[simp] theorem State.setHighway_lineA (h : Nat) (y : Highway) (s : State) : (s.setHighway h y).lineA = s.lineA := rfl
@[simp] theorem State.setHighway_lineB (h : Nat) (y : Highway) (s : State) : (s.setHighway h y).lineB = s.lineB := rfl
@[simp] theorem State.setHighway_due (h : Nat) (y : Highway) (s : State) : (s.setHighway h y).due = s.due := rfl

/-! ### State.owe -/

@[simp] theorem State.owe_pending (r : Route) (s : State) : (s.owe r).pending = s.pending := rfl
@[simp] theorem State.owe_phase (r : Route) (s : State) : (s.owe r).phase = s.phase := rfl
@[simp] theorem State.owe_blockCounter (r : Route) (s : State) : (s.owe r).blockCounter = s.blockCounter := rfl
@[simp] theorem State.owe_sync (r : Route) (s : State) : (s.owe r).sync = s.sync := rfl
@[simp] theorem State.owe_hwKinds (r : Route) (s : State) : (s.owe r).hwKinds = s.hwKinds := rfl
@[simp] theorem State.owe_stamp (r : Route) (s : State) : (s.owe r).stamp = s.stamp := rfl
@[simp] theorem State.owe_prescale (r : Route) (s : State) : (s.owe r).prescale = s.prescale := rfl
@[simp] theorem State.owe_stampUnit (r : Route) (s : State) : (s.owe r).stampUnit = s.stampUnit := rfl
@[simp] theorem State.owe_slots (r : Route) (s : State) : (s.owe r).slots = s.slots := rfl
@[simp] theorem State.owe_ctxs (r : Route) (s : State) : (s.owe r).ctxs = s.ctxs := rfl
@[simp] theorem State.owe_index (r : Route) (s : State) : (s.owe r).index = s.index := rfl
@[simp] theorem State.owe_pool (r : Route) (s : State) : (s.owe r).pool = s.pool := rfl
@[simp] theorem State.owe_free (r : Route) (s : State) : (s.owe r).free = s.free := rfl
@[simp] theorem State.owe_sched (r : Route) (s : State) : (s.owe r).sched = s.sched := rfl
@[simp] theorem State.owe_pointer (r : Route) (s : State) : (s.owe r).pointer = s.pointer := rfl
@[simp] theorem State.owe_units (r : Route) (s : State) : (s.owe r).units = s.units := rfl
@[simp] theorem State.owe_queue (r : Route) (s : State) : (s.owe r).queue = s.queue := rfl
@[simp] theorem State.owe_profiles (r : Route) (s : State) : (s.owe r).profiles = s.profiles := rfl
@[simp] theorem State.owe_resp (r : Route) (s : State) : (s.owe r).resp = s.resp := rfl
@[simp] theorem State.owe_linkOut (r : Route) (s : State) : (s.owe r).linkOut = s.linkOut := rfl
@[simp] theorem State.owe_settings (r : Route) (s : State) : (s.owe r).settings = s.settings := rfl
@[simp] theorem State.owe_inForce (r : Route) (s : State) : (s.owe r).inForce = s.inForce := rfl
@[simp] theorem State.owe_lineA (r : Route) (s : State) : (s.owe r).lineA = oweLine s.inForce.modeA (routesToA s.inForce.merge r) s.lineA := rfl
@[simp] theorem State.owe_lineB (r : Route) (s : State) : (s.owe r).lineB = oweLine s.inForce.modeB (routesToB s.inForce.merge r) s.lineB := rfl
@[simp] theorem State.owe_due (r : Route) (s : State) : (s.owe r).due = s.due := rfl

/-! ### State.place -/

@[simp] theorem State.place_pending (r : Reply) (s : State) : (s.place r).pending = s.pending := rfl
@[simp] theorem State.place_phase (r : Reply) (s : State) : (s.place r).phase = s.phase := rfl
@[simp] theorem State.place_blockCounter (r : Reply) (s : State) : (s.place r).blockCounter = s.blockCounter := rfl
@[simp] theorem State.place_sync (r : Reply) (s : State) : (s.place r).sync = s.sync := rfl
@[simp] theorem State.place_hwKinds (r : Reply) (s : State) : (s.place r).hwKinds = s.hwKinds := rfl
@[simp] theorem State.place_stamp (r : Reply) (s : State) : (s.place r).stamp = s.stamp := rfl
@[simp] theorem State.place_prescale (r : Reply) (s : State) : (s.place r).prescale = s.prescale := rfl
@[simp] theorem State.place_stampUnit (r : Reply) (s : State) : (s.place r).stampUnit = s.stampUnit := rfl
@[simp] theorem State.place_slots (r : Reply) (s : State) : (s.place r).slots = s.slots := rfl
@[simp] theorem State.place_ctxs (r : Reply) (s : State) : (s.place r).ctxs = s.ctxs := rfl
@[simp] theorem State.place_index (r : Reply) (s : State) : (s.place r).index = s.index := rfl
@[simp] theorem State.place_pool (r : Reply) (s : State) : (s.place r).pool = s.pool := rfl
@[simp] theorem State.place_free (r : Reply) (s : State) : (s.place r).free = s.free := rfl
@[simp] theorem State.place_sched (r : Reply) (s : State) : (s.place r).sched = s.sched := rfl
@[simp] theorem State.place_pointer (r : Reply) (s : State) : (s.place r).pointer = s.pointer := rfl
@[simp] theorem State.place_units (r : Reply) (s : State) : (s.place r).units = s.units := rfl
@[simp] theorem State.place_queue (r : Reply) (s : State) : (s.place r).queue = s.queue := rfl
@[simp] theorem State.place_profiles (r : Reply) (s : State) : (s.place r).profiles = s.profiles := rfl
@[simp] theorem State.place_resp (r : Reply) (s : State) : (s.place r).resp = some { status := r.status, overrun := s.resp.isSome, clamped := r.clamped, shortened := r.shortened, already := r.already, body := r.body } := rfl
@[simp] theorem State.place_linkOut (r : Reply) (s : State) : (s.place r).linkOut = s.linkOut := rfl
@[simp] theorem State.place_settings (r : Reply) (s : State) : (s.place r).settings = s.settings := rfl
@[simp] theorem State.place_inForce (r : Reply) (s : State) : (s.place r).inForce = s.inForce := rfl
@[simp] theorem State.place_lineA (r : Reply) (s : State) : (s.place r).lineA = s.lineA := rfl
@[simp] theorem State.place_lineB (r : Reply) (s : State) : (s.place r).lineB = s.lineB := rfl
@[simp] theorem State.place_due (r : Reply) (s : State) : (s.place r).due = s.due := rfl

/-! ### State.mapSlots -/

@[simp] theorem State.mapSlots_pending (f : Nat → Slot → Slot) (s : State) : (s.mapSlots f).pending = s.pending := rfl
@[simp] theorem State.mapSlots_phase (f : Nat → Slot → Slot) (s : State) : (s.mapSlots f).phase = s.phase := rfl
@[simp] theorem State.mapSlots_blockCounter (f : Nat → Slot → Slot) (s : State) : (s.mapSlots f).blockCounter = s.blockCounter := rfl
@[simp] theorem State.mapSlots_sync (f : Nat → Slot → Slot) (s : State) : (s.mapSlots f).sync = s.sync := rfl
@[simp] theorem State.mapSlots_hwKinds (f : Nat → Slot → Slot) (s : State) : (s.mapSlots f).hwKinds = s.hwKinds := rfl
@[simp] theorem State.mapSlots_stamp (f : Nat → Slot → Slot) (s : State) : (s.mapSlots f).stamp = s.stamp := rfl
@[simp] theorem State.mapSlots_prescale (f : Nat → Slot → Slot) (s : State) : (s.mapSlots f).prescale = s.prescale := rfl
@[simp] theorem State.mapSlots_stampUnit (f : Nat → Slot → Slot) (s : State) : (s.mapSlots f).stampUnit = s.stampUnit := rfl
@[simp] theorem State.mapSlots_slots (f : Nat → Slot → Slot) (s : State) : (s.mapSlots f).slots = mapFrom f 0 s.slots := rfl
@[simp] theorem State.mapSlots_ctxs (f : Nat → Slot → Slot) (s : State) : (s.mapSlots f).ctxs = s.ctxs := rfl
@[simp] theorem State.mapSlots_index (f : Nat → Slot → Slot) (s : State) : (s.mapSlots f).index = s.index := rfl
@[simp] theorem State.mapSlots_pool (f : Nat → Slot → Slot) (s : State) : (s.mapSlots f).pool = s.pool := rfl
@[simp] theorem State.mapSlots_free (f : Nat → Slot → Slot) (s : State) : (s.mapSlots f).free = s.free := rfl
@[simp] theorem State.mapSlots_sched (f : Nat → Slot → Slot) (s : State) : (s.mapSlots f).sched = s.sched := rfl
@[simp] theorem State.mapSlots_pointer (f : Nat → Slot → Slot) (s : State) : (s.mapSlots f).pointer = s.pointer := rfl
@[simp] theorem State.mapSlots_units (f : Nat → Slot → Slot) (s : State) : (s.mapSlots f).units = s.units := rfl
@[simp] theorem State.mapSlots_queue (f : Nat → Slot → Slot) (s : State) : (s.mapSlots f).queue = s.queue := rfl
@[simp] theorem State.mapSlots_profiles (f : Nat → Slot → Slot) (s : State) : (s.mapSlots f).profiles = s.profiles := rfl
@[simp] theorem State.mapSlots_resp (f : Nat → Slot → Slot) (s : State) : (s.mapSlots f).resp = s.resp := rfl
@[simp] theorem State.mapSlots_linkOut (f : Nat → Slot → Slot) (s : State) : (s.mapSlots f).linkOut = s.linkOut := rfl
@[simp] theorem State.mapSlots_settings (f : Nat → Slot → Slot) (s : State) : (s.mapSlots f).settings = s.settings := rfl
@[simp] theorem State.mapSlots_inForce (f : Nat → Slot → Slot) (s : State) : (s.mapSlots f).inForce = s.inForce := rfl
@[simp] theorem State.mapSlots_lineA (f : Nat → Slot → Slot) (s : State) : (s.mapSlots f).lineA = s.lineA := rfl
@[simp] theorem State.mapSlots_lineB (f : Nat → Slot → Slot) (s : State) : (s.mapSlots f).lineB = s.lineB := rfl
@[simp] theorem State.mapSlots_due (f : Nat → Slot → Slot) (s : State) : (s.mapSlots f).due = s.due := rfl

/-! ### State.mapRecs -/

@[simp] theorem State.mapRecs_pending (f : Record → Record) (s : State) : (s.mapRecs f).pending = s.pending := rfl
@[simp] theorem State.mapRecs_phase (f : Record → Record) (s : State) : (s.mapRecs f).phase = s.phase := rfl
@[simp] theorem State.mapRecs_blockCounter (f : Record → Record) (s : State) : (s.mapRecs f).blockCounter = s.blockCounter := rfl
@[simp] theorem State.mapRecs_sync (f : Record → Record) (s : State) : (s.mapRecs f).sync = s.sync := rfl
@[simp] theorem State.mapRecs_hwKinds (f : Record → Record) (s : State) : (s.mapRecs f).hwKinds = s.hwKinds := rfl
@[simp] theorem State.mapRecs_stamp (f : Record → Record) (s : State) : (s.mapRecs f).stamp = s.stamp := rfl
@[simp] theorem State.mapRecs_prescale (f : Record → Record) (s : State) : (s.mapRecs f).prescale = s.prescale := rfl
@[simp] theorem State.mapRecs_stampUnit (f : Record → Record) (s : State) : (s.mapRecs f).stampUnit = s.stampUnit := rfl
@[simp] theorem State.mapRecs_slots (f : Record → Record) (s : State) : (s.mapRecs f).slots = s.slots := rfl
@[simp] theorem State.mapRecs_ctxs (f : Record → Record) (s : State) : (s.mapRecs f).ctxs = s.ctxs.map fun e => (e.1, f e.2) := rfl
@[simp] theorem State.mapRecs_index (f : Record → Record) (s : State) : (s.mapRecs f).index = s.index := rfl
@[simp] theorem State.mapRecs_pool (f : Record → Record) (s : State) : (s.mapRecs f).pool = s.pool := rfl
@[simp] theorem State.mapRecs_free (f : Record → Record) (s : State) : (s.mapRecs f).free = s.free := rfl
@[simp] theorem State.mapRecs_sched (f : Record → Record) (s : State) : (s.mapRecs f).sched = s.sched := rfl
@[simp] theorem State.mapRecs_pointer (f : Record → Record) (s : State) : (s.mapRecs f).pointer = s.pointer := rfl
@[simp] theorem State.mapRecs_units (f : Record → Record) (s : State) : (s.mapRecs f).units = s.units := rfl
@[simp] theorem State.mapRecs_queue (f : Record → Record) (s : State) : (s.mapRecs f).queue = s.queue := rfl
@[simp] theorem State.mapRecs_profiles (f : Record → Record) (s : State) : (s.mapRecs f).profiles = s.profiles := rfl
@[simp] theorem State.mapRecs_resp (f : Record → Record) (s : State) : (s.mapRecs f).resp = s.resp := rfl
@[simp] theorem State.mapRecs_linkOut (f : Record → Record) (s : State) : (s.mapRecs f).linkOut = s.linkOut := rfl
@[simp] theorem State.mapRecs_settings (f : Record → Record) (s : State) : (s.mapRecs f).settings = s.settings := rfl
@[simp] theorem State.mapRecs_inForce (f : Record → Record) (s : State) : (s.mapRecs f).inForce = s.inForce := rfl
@[simp] theorem State.mapRecs_lineA (f : Record → Record) (s : State) : (s.mapRecs f).lineA = s.lineA := rfl
@[simp] theorem State.mapRecs_lineB (f : Record → Record) (s : State) : (s.mapRecs f).lineB = s.lineB := rfl
@[simp] theorem State.mapRecs_due (f : Record → Record) (s : State) : (s.mapRecs f).due = s.due := rfl

/-! ### clearHw -/

@[simp] theorem clearHw_pending (h : Nat) (s : State) : (clearHw h s).pending = s.pending := rfl
@[simp] theorem clearHw_phase (h : Nat) (s : State) : (clearHw h s).phase = s.phase := rfl
@[simp] theorem clearHw_blockCounter (h : Nat) (s : State) : (clearHw h s).blockCounter = s.blockCounter := rfl
@[simp] theorem clearHw_sync (h : Nat) (s : State) : (clearHw h s).sync = s.sync := rfl
@[simp] theorem clearHw_hwKinds (h : Nat) (s : State) : (clearHw h s).hwKinds = tdel h s.hwKinds := rfl
@[simp] theorem clearHw_stamp (h : Nat) (s : State) : (clearHw h s).stamp = s.stamp := rfl
@[simp] theorem clearHw_prescale (h : Nat) (s : State) : (clearHw h s).prescale = s.prescale := rfl
@[simp] theorem clearHw_stampUnit (h : Nat) (s : State) : (clearHw h s).stampUnit = s.stampUnit := rfl
@[simp] theorem clearHw_slots (h : Nat) (s : State) : (clearHw h s).slots = s.slots := rfl
@[simp] theorem clearHw_ctxs (h : Nat) (s : State) : (clearHw h s).ctxs = s.ctxs := rfl
@[simp] theorem clearHw_index (h : Nat) (s : State) : (clearHw h s).index = s.index := rfl
@[simp] theorem clearHw_pool (h : Nat) (s : State) : (clearHw h s).pool = s.pool := rfl
@[simp] theorem clearHw_free (h : Nat) (s : State) : (clearHw h s).free = s.free := rfl
@[simp] theorem clearHw_sched (h : Nat) (s : State) : (clearHw h s).sched = s.sched := rfl
@[simp] theorem clearHw_pointer (h : Nat) (s : State) : (clearHw h s).pointer = s.pointer := rfl
@[simp] theorem clearHw_units (h : Nat) (s : State) : (clearHw h s).units = s.units := rfl
@[simp] theorem clearHw_queue (h : Nat) (s : State) : (clearHw h s).queue = s.queue := rfl
@[simp] theorem clearHw_profiles (h : Nat) (s : State) : (clearHw h s).profiles = s.profiles := rfl
@[simp] theorem clearHw_resp (h : Nat) (s : State) : (clearHw h s).resp = s.resp := rfl
@[simp] theorem clearHw_linkOut (h : Nat) (s : State) : (clearHw h s).linkOut = s.linkOut := rfl
@[simp] theorem clearHw_settings (h : Nat) (s : State) : (clearHw h s).settings = s.settings := rfl
@[simp] theorem clearHw_inForce (h : Nat) (s : State) : (clearHw h s).inForce = s.inForce := rfl
@[simp] theorem clearHw_lineA (h : Nat) (s : State) : (clearHw h s).lineA = s.lineA := rfl
@[simp] theorem clearHw_lineB (h : Nat) (s : State) : (clearHw h s).lineB = s.lineB := rfl
@[simp] theorem clearHw_due (h : Nat) (s : State) : (clearHw h s).due = s.due := rfl

end Sys2Proof.Machine
end

