-- ==== Sys2Proof/Laws/Frames.lean ====
section
/-! SUPPORT. What each shared operation leaves alone: one lemma per operation and field. -/

namespace Sys2Proof.Machine

/-! ### State.modRec -/

@[simp] theorem State.modRec_pending (c : Nat) (f : Record → Record) (s : State) : (s.modRec c f).pending = s.pending := by
  unfold State.modRec
  (repeat' split) <;> simp
@[simp] theorem State.modRec_phase (c : Nat) (f : Record → Record) (s : State) : (s.modRec c f).phase = s.phase := by
  unfold State.modRec
  (repeat' split) <;> simp
@[simp] theorem State.modRec_blockCounter (c : Nat) (f : Record → Record) (s : State) : (s.modRec c f).blockCounter = s.blockCounter := by
  unfold State.modRec
  (repeat' split) <;> simp
@[simp] theorem State.modRec_sync (c : Nat) (f : Record → Record) (s : State) : (s.modRec c f).sync = s.sync := by
  unfold State.modRec
  (repeat' split) <;> simp
@[simp] theorem State.modRec_hwKinds (c : Nat) (f : Record → Record) (s : State) : (s.modRec c f).hwKinds = s.hwKinds := by
  unfold State.modRec
  (repeat' split) <;> simp
@[simp] theorem State.modRec_stamp (c : Nat) (f : Record → Record) (s : State) : (s.modRec c f).stamp = s.stamp := by
  unfold State.modRec
  (repeat' split) <;> simp
@[simp] theorem State.modRec_prescale (c : Nat) (f : Record → Record) (s : State) : (s.modRec c f).prescale = s.prescale := by
  unfold State.modRec
  (repeat' split) <;> simp
@[simp] theorem State.modRec_stampUnit (c : Nat) (f : Record → Record) (s : State) : (s.modRec c f).stampUnit = s.stampUnit := by
  unfold State.modRec
  (repeat' split) <;> simp
@[simp] theorem State.modRec_slots (c : Nat) (f : Record → Record) (s : State) : (s.modRec c f).slots = s.slots := by
  unfold State.modRec
  (repeat' split) <;> simp
@[simp] theorem State.modRec_index (c : Nat) (f : Record → Record) (s : State) : (s.modRec c f).index = s.index := by
  unfold State.modRec
  (repeat' split) <;> simp
@[simp] theorem State.modRec_pool (c : Nat) (f : Record → Record) (s : State) : (s.modRec c f).pool = s.pool := by
  unfold State.modRec
  (repeat' split) <;> simp
@[simp] theorem State.modRec_free (c : Nat) (f : Record → Record) (s : State) : (s.modRec c f).free = s.free := by
  unfold State.modRec
  (repeat' split) <;> simp
@[simp] theorem State.modRec_sched (c : Nat) (f : Record → Record) (s : State) : (s.modRec c f).sched = s.sched := by
  unfold State.modRec
  (repeat' split) <;> simp
@[simp] theorem State.modRec_pointer (c : Nat) (f : Record → Record) (s : State) : (s.modRec c f).pointer = s.pointer := by
  unfold State.modRec
  (repeat' split) <;> simp
@[simp] theorem State.modRec_units (c : Nat) (f : Record → Record) (s : State) : (s.modRec c f).units = s.units := by
  unfold State.modRec
  (repeat' split) <;> simp
@[simp] theorem State.modRec_queue (c : Nat) (f : Record → Record) (s : State) : (s.modRec c f).queue = s.queue := by
  unfold State.modRec
  (repeat' split) <;> simp
@[simp] theorem State.modRec_profiles (c : Nat) (f : Record → Record) (s : State) : (s.modRec c f).profiles = s.profiles := by
  unfold State.modRec
  (repeat' split) <;> simp
@[simp] theorem State.modRec_resp (c : Nat) (f : Record → Record) (s : State) : (s.modRec c f).resp = s.resp := by
  unfold State.modRec
  (repeat' split) <;> simp
@[simp] theorem State.modRec_linkOut (c : Nat) (f : Record → Record) (s : State) : (s.modRec c f).linkOut = s.linkOut := by
  unfold State.modRec
  (repeat' split) <;> simp
@[simp] theorem State.modRec_settings (c : Nat) (f : Record → Record) (s : State) : (s.modRec c f).settings = s.settings := by
  unfold State.modRec
  (repeat' split) <;> simp
@[simp] theorem State.modRec_inForce (c : Nat) (f : Record → Record) (s : State) : (s.modRec c f).inForce = s.inForce := by
  unfold State.modRec
  (repeat' split) <;> simp
@[simp] theorem State.modRec_lineA (c : Nat) (f : Record → Record) (s : State) : (s.modRec c f).lineA = s.lineA := by
  unfold State.modRec
  (repeat' split) <;> simp
@[simp] theorem State.modRec_lineB (c : Nat) (f : Record → Record) (s : State) : (s.modRec c f).lineB = s.lineB := by
  unfold State.modRec
  (repeat' split) <;> simp
@[simp] theorem State.modRec_due (c : Nat) (f : Record → Record) (s : State) : (s.modRec c f).due = s.due := by
  unfold State.modRec
  (repeat' split) <;> simp

/-! ### State.startLines -/

@[simp] theorem State.startLines_pending (s : State) : s.startLines.pending = s.pending := rfl
@[simp] theorem State.startLines_phase (s : State) : s.startLines.phase = s.phase := rfl
@[simp] theorem State.startLines_blockCounter (s : State) : s.startLines.blockCounter = s.blockCounter := rfl
@[simp] theorem State.startLines_sync (s : State) : s.startLines.sync = s.sync := rfl
@[simp] theorem State.startLines_hwKinds (s : State) : s.startLines.hwKinds = s.hwKinds := rfl
@[simp] theorem State.startLines_stamp (s : State) : s.startLines.stamp = s.stamp := rfl
@[simp] theorem State.startLines_prescale (s : State) : s.startLines.prescale = s.prescale := rfl
@[simp] theorem State.startLines_stampUnit (s : State) : s.startLines.stampUnit = s.stampUnit := rfl
@[simp] theorem State.startLines_slots (s : State) : s.startLines.slots = s.slots := rfl
@[simp] theorem State.startLines_ctxs (s : State) : s.startLines.ctxs = s.ctxs := rfl
@[simp] theorem State.startLines_index (s : State) : s.startLines.index = s.index := rfl
@[simp] theorem State.startLines_pool (s : State) : s.startLines.pool = s.pool := rfl
@[simp] theorem State.startLines_free (s : State) : s.startLines.free = s.free := rfl
@[simp] theorem State.startLines_sched (s : State) : s.startLines.sched = s.sched := rfl
@[simp] theorem State.startLines_pointer (s : State) : s.startLines.pointer = s.pointer := rfl
@[simp] theorem State.startLines_units (s : State) : s.startLines.units = s.units := rfl
@[simp] theorem State.startLines_queue (s : State) : s.startLines.queue = s.queue := rfl
@[simp] theorem State.startLines_profiles (s : State) : s.startLines.profiles = s.profiles := rfl
@[simp] theorem State.startLines_resp (s : State) : s.startLines.resp = s.resp := rfl
@[simp] theorem State.startLines_linkOut (s : State) : s.startLines.linkOut = s.linkOut := rfl
@[simp] theorem State.startLines_settings (s : State) : s.startLines.settings = s.settings := rfl
@[simp] theorem State.startLines_due (s : State) : s.startLines.due = s.due := rfl

/-! ### setLink -/

@[simp] theorem setLink_pending (l : SearchLink) (c : Nat) (s : State) : (setLink l c s).pending = s.pending := by simp [setLink]
@[simp] theorem setLink_phase (l : SearchLink) (c : Nat) (s : State) : (setLink l c s).phase = s.phase := by simp [setLink]
@[simp] theorem setLink_blockCounter (l : SearchLink) (c : Nat) (s : State) : (setLink l c s).blockCounter = s.blockCounter := by simp [setLink]
@[simp] theorem setLink_sync (l : SearchLink) (c : Nat) (s : State) : (setLink l c s).sync = s.sync := by simp [setLink]
@[simp] theorem setLink_hwKinds (l : SearchLink) (c : Nat) (s : State) : (setLink l c s).hwKinds = s.hwKinds := by simp [setLink]
@[simp] theorem setLink_stamp (l : SearchLink) (c : Nat) (s : State) : (setLink l c s).stamp = s.stamp := by simp [setLink]
@[simp] theorem setLink_prescale (l : SearchLink) (c : Nat) (s : State) : (setLink l c s).prescale = s.prescale := by simp [setLink]
@[simp] theorem setLink_stampUnit (l : SearchLink) (c : Nat) (s : State) : (setLink l c s).stampUnit = s.stampUnit := by simp [setLink]
@[simp] theorem setLink_slots (l : SearchLink) (c : Nat) (s : State) : (setLink l c s).slots = s.slots := by simp [setLink]
@[simp] theorem setLink_index (l : SearchLink) (c : Nat) (s : State) : (setLink l c s).index = s.index := by simp [setLink]
@[simp] theorem setLink_pool (l : SearchLink) (c : Nat) (s : State) : (setLink l c s).pool = s.pool := by simp [setLink]
@[simp] theorem setLink_free (l : SearchLink) (c : Nat) (s : State) : (setLink l c s).free = s.free := by simp [setLink]
@[simp] theorem setLink_sched (l : SearchLink) (c : Nat) (s : State) : (setLink l c s).sched = s.sched := by simp [setLink]
@[simp] theorem setLink_pointer (l : SearchLink) (c : Nat) (s : State) : (setLink l c s).pointer = s.pointer := by simp [setLink]
@[simp] theorem setLink_units (l : SearchLink) (c : Nat) (s : State) : (setLink l c s).units = s.units := by simp [setLink]
@[simp] theorem setLink_queue (l : SearchLink) (c : Nat) (s : State) : (setLink l c s).queue = s.queue := by simp [setLink]
@[simp] theorem setLink_profiles (l : SearchLink) (c : Nat) (s : State) : (setLink l c s).profiles = s.profiles := by simp [setLink]
@[simp] theorem setLink_resp (l : SearchLink) (c : Nat) (s : State) : (setLink l c s).resp = s.resp := by simp [setLink]
@[simp] theorem setLink_linkOut (l : SearchLink) (c : Nat) (s : State) : (setLink l c s).linkOut = s.linkOut := by simp [setLink]
@[simp] theorem setLink_settings (l : SearchLink) (c : Nat) (s : State) : (setLink l c s).settings = s.settings := by simp [setLink]
@[simp] theorem setLink_inForce (l : SearchLink) (c : Nat) (s : State) : (setLink l c s).inForce = s.inForce := by simp [setLink]
@[simp] theorem setLink_lineA (l : SearchLink) (c : Nat) (s : State) : (setLink l c s).lineA = s.lineA := by simp [setLink]
@[simp] theorem setLink_lineB (l : SearchLink) (c : Nat) (s : State) : (setLink l c s).lineB = s.lineB := by simp [setLink]
@[simp] theorem setLink_due (l : SearchLink) (c : Nat) (s : State) : (setLink l c s).due = s.due := by simp [setLink]

/-! ### raise -/

@[simp] theorem raise_pending (k : Kind) (c : Nat) (s : State) : (raise k c s).pending = s.pending := by
  unfold raise
  (repeat' split) <;> simp
@[simp] theorem raise_phase (k : Kind) (c : Nat) (s : State) : (raise k c s).phase = s.phase := by
  unfold raise
  (repeat' split) <;> simp
@[simp] theorem raise_blockCounter (k : Kind) (c : Nat) (s : State) : (raise k c s).blockCounter = s.blockCounter := by
  unfold raise
  (repeat' split) <;> simp
@[simp] theorem raise_sync (k : Kind) (c : Nat) (s : State) : (raise k c s).sync = s.sync := by
  unfold raise
  (repeat' split) <;> simp
@[simp] theorem raise_hwKinds (k : Kind) (c : Nat) (s : State) : (raise k c s).hwKinds = s.hwKinds := by
  unfold raise
  (repeat' split) <;> simp
@[simp] theorem raise_stamp (k : Kind) (c : Nat) (s : State) : (raise k c s).stamp = s.stamp := by
  unfold raise
  (repeat' split) <;> simp
@[simp] theorem raise_prescale (k : Kind) (c : Nat) (s : State) : (raise k c s).prescale = s.prescale := by
  unfold raise
  (repeat' split) <;> simp
@[simp] theorem raise_stampUnit (k : Kind) (c : Nat) (s : State) : (raise k c s).stampUnit = s.stampUnit := by
  unfold raise
  (repeat' split) <;> simp
@[simp] theorem raise_slots (k : Kind) (c : Nat) (s : State) : (raise k c s).slots = s.slots := by
  unfold raise
  (repeat' split) <;> simp
@[simp] theorem raise_index (k : Kind) (c : Nat) (s : State) : (raise k c s).index = s.index := by
  unfold raise
  (repeat' split) <;> simp
@[simp] theorem raise_pool (k : Kind) (c : Nat) (s : State) : (raise k c s).pool = s.pool := by
  unfold raise
  (repeat' split) <;> simp
@[simp] theorem raise_free (k : Kind) (c : Nat) (s : State) : (raise k c s).free = s.free := by
  unfold raise
  (repeat' split) <;> simp
@[simp] theorem raise_sched (k : Kind) (c : Nat) (s : State) : (raise k c s).sched = s.sched := by
  unfold raise
  (repeat' split) <;> simp
@[simp] theorem raise_pointer (k : Kind) (c : Nat) (s : State) : (raise k c s).pointer = s.pointer := by
  unfold raise
  (repeat' split) <;> simp
@[simp] theorem raise_units (k : Kind) (c : Nat) (s : State) : (raise k c s).units = s.units := by
  unfold raise
  (repeat' split) <;> simp
@[simp] theorem raise_queue (k : Kind) (c : Nat) (s : State) : (raise k c s).queue = s.queue := by
  unfold raise
  (repeat' split) <;> simp
@[simp] theorem raise_profiles (k : Kind) (c : Nat) (s : State) : (raise k c s).profiles = s.profiles := by
  unfold raise
  (repeat' split) <;> simp
@[simp] theorem raise_resp (k : Kind) (c : Nat) (s : State) : (raise k c s).resp = s.resp := by
  unfold raise
  (repeat' split) <;> simp
@[simp] theorem raise_linkOut (k : Kind) (c : Nat) (s : State) : (raise k c s).linkOut = s.linkOut := by
  unfold raise
  (repeat' split) <;> simp
@[simp] theorem raise_settings (k : Kind) (c : Nat) (s : State) : (raise k c s).settings = s.settings := by
  unfold raise
  (repeat' split) <;> simp
@[simp] theorem raise_inForce (k : Kind) (c : Nat) (s : State) : (raise k c s).inForce = s.inForce := by
  unfold raise
  (repeat' split) <;> simp
@[simp] theorem raise_due (k : Kind) (c : Nat) (s : State) : (raise k c s).due = s.due := by
  unfold raise
  (repeat' split) <;> simp

/-! ### raiseHw -/

@[simp] theorem raiseHw_pending (k : HwKind) (h : Nat) (s : State) : (raiseHw k h s).pending = s.pending := by
  unfold raiseHw
  (repeat' split) <;> simp
@[simp] theorem raiseHw_phase (k : HwKind) (h : Nat) (s : State) : (raiseHw k h s).phase = s.phase := by
  unfold raiseHw
  (repeat' split) <;> simp
@[simp] theorem raiseHw_blockCounter (k : HwKind) (h : Nat) (s : State) : (raiseHw k h s).blockCounter = s.blockCounter := by
  unfold raiseHw
  (repeat' split) <;> simp
@[simp] theorem raiseHw_sync (k : HwKind) (h : Nat) (s : State) : (raiseHw k h s).sync = s.sync := by
  unfold raiseHw
  (repeat' split) <;> simp
@[simp] theorem raiseHw_stamp (k : HwKind) (h : Nat) (s : State) : (raiseHw k h s).stamp = s.stamp := by
  unfold raiseHw
  (repeat' split) <;> simp
@[simp] theorem raiseHw_prescale (k : HwKind) (h : Nat) (s : State) : (raiseHw k h s).prescale = s.prescale := by
  unfold raiseHw
  (repeat' split) <;> simp
@[simp] theorem raiseHw_stampUnit (k : HwKind) (h : Nat) (s : State) : (raiseHw k h s).stampUnit = s.stampUnit := by
  unfold raiseHw
  (repeat' split) <;> simp
@[simp] theorem raiseHw_slots (k : HwKind) (h : Nat) (s : State) : (raiseHw k h s).slots = s.slots := by
  unfold raiseHw
  (repeat' split) <;> simp
@[simp] theorem raiseHw_ctxs (k : HwKind) (h : Nat) (s : State) : (raiseHw k h s).ctxs = s.ctxs := by
  unfold raiseHw
  (repeat' split) <;> simp
@[simp] theorem raiseHw_index (k : HwKind) (h : Nat) (s : State) : (raiseHw k h s).index = s.index := by
  unfold raiseHw
  (repeat' split) <;> simp
@[simp] theorem raiseHw_pool (k : HwKind) (h : Nat) (s : State) : (raiseHw k h s).pool = s.pool := by
  unfold raiseHw
  (repeat' split) <;> simp
@[simp] theorem raiseHw_free (k : HwKind) (h : Nat) (s : State) : (raiseHw k h s).free = s.free := by
  unfold raiseHw
  (repeat' split) <;> simp
@[simp] theorem raiseHw_sched (k : HwKind) (h : Nat) (s : State) : (raiseHw k h s).sched = s.sched := by
  unfold raiseHw
  (repeat' split) <;> simp
@[simp] theorem raiseHw_pointer (k : HwKind) (h : Nat) (s : State) : (raiseHw k h s).pointer = s.pointer := by
  unfold raiseHw
  (repeat' split) <;> simp
@[simp] theorem raiseHw_units (k : HwKind) (h : Nat) (s : State) : (raiseHw k h s).units = s.units := by
  unfold raiseHw
  (repeat' split) <;> simp
@[simp] theorem raiseHw_queue (k : HwKind) (h : Nat) (s : State) : (raiseHw k h s).queue = s.queue := by
  unfold raiseHw
  (repeat' split) <;> simp
@[simp] theorem raiseHw_profiles (k : HwKind) (h : Nat) (s : State) : (raiseHw k h s).profiles = s.profiles := by
  unfold raiseHw
  (repeat' split) <;> simp
@[simp] theorem raiseHw_resp (k : HwKind) (h : Nat) (s : State) : (raiseHw k h s).resp = s.resp := by
  unfold raiseHw
  (repeat' split) <;> simp
@[simp] theorem raiseHw_linkOut (k : HwKind) (h : Nat) (s : State) : (raiseHw k h s).linkOut = s.linkOut := by
  unfold raiseHw
  (repeat' split) <;> simp
@[simp] theorem raiseHw_settings (k : HwKind) (h : Nat) (s : State) : (raiseHw k h s).settings = s.settings := by
  unfold raiseHw
  (repeat' split) <;> simp
@[simp] theorem raiseHw_inForce (k : HwKind) (h : Nat) (s : State) : (raiseHw k h s).inForce = s.inForce := by
  unfold raiseHw
  (repeat' split) <;> simp
@[simp] theorem raiseHw_due (k : HwKind) (h : Nat) (s : State) : (raiseHw k h s).due = s.due := by
  unfold raiseHw
  (repeat' split) <;> simp

/-! ### writeDetail -/

@[simp] theorem writeDetail_pending (c : Nat) (d : Detail) (s : State) : (writeDetail c d s).pending = s.pending := by simp [writeDetail]
@[simp] theorem writeDetail_phase (c : Nat) (d : Detail) (s : State) : (writeDetail c d s).phase = s.phase := by simp [writeDetail]
@[simp] theorem writeDetail_blockCounter (c : Nat) (d : Detail) (s : State) : (writeDetail c d s).blockCounter = s.blockCounter := by simp [writeDetail]
@[simp] theorem writeDetail_sync (c : Nat) (d : Detail) (s : State) : (writeDetail c d s).sync = s.sync := by simp [writeDetail]
@[simp] theorem writeDetail_hwKinds (c : Nat) (d : Detail) (s : State) : (writeDetail c d s).hwKinds = s.hwKinds := by simp [writeDetail]
@[simp] theorem writeDetail_stamp (c : Nat) (d : Detail) (s : State) : (writeDetail c d s).stamp = s.stamp := by simp [writeDetail]
@[simp] theorem writeDetail_prescale (c : Nat) (d : Detail) (s : State) : (writeDetail c d s).prescale = s.prescale := by simp [writeDetail]
@[simp] theorem writeDetail_stampUnit (c : Nat) (d : Detail) (s : State) : (writeDetail c d s).stampUnit = s.stampUnit := by simp [writeDetail]
@[simp] theorem writeDetail_slots (c : Nat) (d : Detail) (s : State) : (writeDetail c d s).slots = s.slots := by simp [writeDetail]
@[simp] theorem writeDetail_index (c : Nat) (d : Detail) (s : State) : (writeDetail c d s).index = s.index := by simp [writeDetail]
@[simp] theorem writeDetail_pool (c : Nat) (d : Detail) (s : State) : (writeDetail c d s).pool = s.pool := by simp [writeDetail]
@[simp] theorem writeDetail_free (c : Nat) (d : Detail) (s : State) : (writeDetail c d s).free = s.free := by simp [writeDetail]
@[simp] theorem writeDetail_sched (c : Nat) (d : Detail) (s : State) : (writeDetail c d s).sched = s.sched := by simp [writeDetail]
@[simp] theorem writeDetail_pointer (c : Nat) (d : Detail) (s : State) : (writeDetail c d s).pointer = s.pointer := by simp [writeDetail]
@[simp] theorem writeDetail_units (c : Nat) (d : Detail) (s : State) : (writeDetail c d s).units = s.units := by simp [writeDetail]
@[simp] theorem writeDetail_queue (c : Nat) (d : Detail) (s : State) : (writeDetail c d s).queue = s.queue := by simp [writeDetail]
@[simp] theorem writeDetail_profiles (c : Nat) (d : Detail) (s : State) : (writeDetail c d s).profiles = s.profiles := by simp [writeDetail]
@[simp] theorem writeDetail_resp (c : Nat) (d : Detail) (s : State) : (writeDetail c d s).resp = s.resp := by simp [writeDetail]
@[simp] theorem writeDetail_linkOut (c : Nat) (d : Detail) (s : State) : (writeDetail c d s).linkOut = s.linkOut := by simp [writeDetail]
@[simp] theorem writeDetail_settings (c : Nat) (d : Detail) (s : State) : (writeDetail c d s).settings = s.settings := by simp [writeDetail]
@[simp] theorem writeDetail_inForce (c : Nat) (d : Detail) (s : State) : (writeDetail c d s).inForce = s.inForce := by simp [writeDetail]
@[simp] theorem writeDetail_lineA (c : Nat) (d : Detail) (s : State) : (writeDetail c d s).lineA = s.lineA := by simp [writeDetail]
@[simp] theorem writeDetail_lineB (c : Nat) (d : Detail) (s : State) : (writeDetail c d s).lineB = s.lineB := by simp [writeDetail]
@[simp] theorem writeDetail_due (c : Nat) (d : Detail) (s : State) : (writeDetail c d s).due = s.due := by simp [writeDetail]

/-! ### startSearch -/

@[simp] theorem startSearch_pending (u c : Nat) (b : Bool) (s : State) : (startSearch u c b s).pending = s.pending := by
  unfold startSearch
  (repeat' split) <;> simp
@[simp] theorem startSearch_phase (u c : Nat) (b : Bool) (s : State) : (startSearch u c b s).phase = s.phase := by
  unfold startSearch
  (repeat' split) <;> simp
@[simp] theorem startSearch_blockCounter (u c : Nat) (b : Bool) (s : State) : (startSearch u c b s).blockCounter = s.blockCounter := by
  unfold startSearch
  (repeat' split) <;> simp
@[simp] theorem startSearch_sync (u c : Nat) (b : Bool) (s : State) : (startSearch u c b s).sync = s.sync := by
  unfold startSearch
  (repeat' split) <;> simp
@[simp] theorem startSearch_hwKinds (u c : Nat) (b : Bool) (s : State) : (startSearch u c b s).hwKinds = s.hwKinds := by
  unfold startSearch
  (repeat' split) <;> simp
@[simp] theorem startSearch_stamp (u c : Nat) (b : Bool) (s : State) : (startSearch u c b s).stamp = s.stamp := by
  unfold startSearch
  (repeat' split) <;> simp
@[simp] theorem startSearch_prescale (u c : Nat) (b : Bool) (s : State) : (startSearch u c b s).prescale = s.prescale := by
  unfold startSearch
  (repeat' split) <;> simp
@[simp] theorem startSearch_stampUnit (u c : Nat) (b : Bool) (s : State) : (startSearch u c b s).stampUnit = s.stampUnit := by
  unfold startSearch
  (repeat' split) <;> simp
@[simp] theorem startSearch_slots (u c : Nat) (b : Bool) (s : State) : (startSearch u c b s).slots = s.slots := by
  unfold startSearch
  (repeat' split) <;> simp
@[simp] theorem startSearch_index (u c : Nat) (b : Bool) (s : State) : (startSearch u c b s).index = s.index := by
  unfold startSearch
  (repeat' split) <;> simp
@[simp] theorem startSearch_pool (u c : Nat) (b : Bool) (s : State) : (startSearch u c b s).pool = s.pool := by
  unfold startSearch
  (repeat' split) <;> simp
@[simp] theorem startSearch_free (u c : Nat) (b : Bool) (s : State) : (startSearch u c b s).free = s.free := by
  unfold startSearch
  (repeat' split) <;> simp
@[simp] theorem startSearch_sched (u c : Nat) (b : Bool) (s : State) : (startSearch u c b s).sched = s.sched := by
  unfold startSearch
  (repeat' split) <;> simp
@[simp] theorem startSearch_pointer (u c : Nat) (b : Bool) (s : State) : (startSearch u c b s).pointer = s.pointer := by
  unfold startSearch
  (repeat' split) <;> simp
@[simp] theorem startSearch_profiles (u c : Nat) (b : Bool) (s : State) : (startSearch u c b s).profiles = s.profiles := by
  unfold startSearch
  (repeat' split) <;> simp
@[simp] theorem startSearch_resp (u c : Nat) (b : Bool) (s : State) : (startSearch u c b s).resp = s.resp := by
  unfold startSearch
  (repeat' split) <;> simp
@[simp] theorem startSearch_linkOut (u c : Nat) (b : Bool) (s : State) : (startSearch u c b s).linkOut = s.linkOut := by
  unfold startSearch
  (repeat' split) <;> simp
@[simp] theorem startSearch_settings (u c : Nat) (b : Bool) (s : State) : (startSearch u c b s).settings = s.settings := by
  unfold startSearch
  (repeat' split) <;> simp
@[simp] theorem startSearch_inForce (u c : Nat) (b : Bool) (s : State) : (startSearch u c b s).inForce = s.inForce := by
  unfold startSearch
  (repeat' split) <;> simp
@[simp] theorem startSearch_lineA (u c : Nat) (b : Bool) (s : State) : (startSearch u c b s).lineA = s.lineA := by
  unfold startSearch
  (repeat' split) <;> simp
@[simp] theorem startSearch_lineB (u c : Nat) (b : Bool) (s : State) : (startSearch u c b s).lineB = s.lineB := by
  unfold startSearch
  (repeat' split) <;> simp
@[simp] theorem startSearch_due (u c : Nat) (b : Bool) (s : State) : (startSearch u c b s).due = s.due := by
  unfold startSearch
  (repeat' split) <;> simp

/-! ### freeUnit -/

@[simp] theorem freeUnit_pending (u : Nat) (b : Bool) (s : State) : (freeUnit u b s).pending = s.pending := by
  unfold freeUnit
  dsimp only
  (repeat' split) <;> simp
@[simp] theorem freeUnit_phase (u : Nat) (b : Bool) (s : State) : (freeUnit u b s).phase = s.phase := by
  unfold freeUnit
  dsimp only
  (repeat' split) <;> simp
@[simp] theorem freeUnit_blockCounter (u : Nat) (b : Bool) (s : State) : (freeUnit u b s).blockCounter = s.blockCounter := by
  unfold freeUnit
  dsimp only
  (repeat' split) <;> simp
@[simp] theorem freeUnit_sync (u : Nat) (b : Bool) (s : State) : (freeUnit u b s).sync = s.sync := by
  unfold freeUnit
  dsimp only
  (repeat' split) <;> simp
@[simp] theorem freeUnit_hwKinds (u : Nat) (b : Bool) (s : State) : (freeUnit u b s).hwKinds = s.hwKinds := by
  unfold freeUnit
  dsimp only
  (repeat' split) <;> simp
@[simp] theorem freeUnit_stamp (u : Nat) (b : Bool) (s : State) : (freeUnit u b s).stamp = s.stamp := by
  unfold freeUnit
  dsimp only
  (repeat' split) <;> simp
@[simp] theorem freeUnit_prescale (u : Nat) (b : Bool) (s : State) : (freeUnit u b s).prescale = s.prescale := by
  unfold freeUnit
  dsimp only
  (repeat' split) <;> simp
@[simp] theorem freeUnit_stampUnit (u : Nat) (b : Bool) (s : State) : (freeUnit u b s).stampUnit = s.stampUnit := by
  unfold freeUnit
  dsimp only
  (repeat' split) <;> simp
@[simp] theorem freeUnit_slots (u : Nat) (b : Bool) (s : State) : (freeUnit u b s).slots = s.slots := by
  unfold freeUnit
  dsimp only
  (repeat' split) <;> simp
@[simp] theorem freeUnit_index (u : Nat) (b : Bool) (s : State) : (freeUnit u b s).index = s.index := by
  unfold freeUnit
  dsimp only
  (repeat' split) <;> simp
@[simp] theorem freeUnit_pool (u : Nat) (b : Bool) (s : State) : (freeUnit u b s).pool = s.pool := by
  unfold freeUnit
  dsimp only
  (repeat' split) <;> simp
@[simp] theorem freeUnit_free (u : Nat) (b : Bool) (s : State) : (freeUnit u b s).free = s.free := by
  unfold freeUnit
  dsimp only
  (repeat' split) <;> simp
@[simp] theorem freeUnit_sched (u : Nat) (b : Bool) (s : State) : (freeUnit u b s).sched = s.sched := by
  unfold freeUnit
  dsimp only
  (repeat' split) <;> simp
@[simp] theorem freeUnit_pointer (u : Nat) (b : Bool) (s : State) : (freeUnit u b s).pointer = s.pointer := by
  unfold freeUnit
  dsimp only
  (repeat' split) <;> simp
@[simp] theorem freeUnit_profiles (u : Nat) (b : Bool) (s : State) : (freeUnit u b s).profiles = s.profiles := by
  unfold freeUnit
  dsimp only
  (repeat' split) <;> simp
@[simp] theorem freeUnit_resp (u : Nat) (b : Bool) (s : State) : (freeUnit u b s).resp = s.resp := by
  unfold freeUnit
  dsimp only
  (repeat' split) <;> simp
@[simp] theorem freeUnit_linkOut (u : Nat) (b : Bool) (s : State) : (freeUnit u b s).linkOut = s.linkOut := by
  unfold freeUnit
  dsimp only
  (repeat' split) <;> simp
@[simp] theorem freeUnit_settings (u : Nat) (b : Bool) (s : State) : (freeUnit u b s).settings = s.settings := by
  unfold freeUnit
  dsimp only
  (repeat' split) <;> simp
@[simp] theorem freeUnit_inForce (u : Nat) (b : Bool) (s : State) : (freeUnit u b s).inForce = s.inForce := by
  unfold freeUnit
  dsimp only
  (repeat' split) <;> simp
@[simp] theorem freeUnit_lineA (u : Nat) (b : Bool) (s : State) : (freeUnit u b s).lineA = s.lineA := by
  unfold freeUnit
  dsimp only
  (repeat' split) <;> simp
@[simp] theorem freeUnit_lineB (u : Nat) (b : Bool) (s : State) : (freeUnit u b s).lineB = s.lineB := by
  unfold freeUnit
  dsimp only
  (repeat' split) <;> simp
@[simp] theorem freeUnit_due (u : Nat) (b : Bool) (s : State) : (freeUnit u b s).due = s.due := by
  unfold freeUnit
  dsimp only
  (repeat' split) <;> simp

/-! ### endSearch -/

@[simp] theorem endSearch_pending (c : Nat) (b : Bool) (s : State) : (endSearch c b s).pending = s.pending := by
  unfold endSearch
  (repeat' split) <;> simp
@[simp] theorem endSearch_phase (c : Nat) (b : Bool) (s : State) : (endSearch c b s).phase = s.phase := by
  unfold endSearch
  (repeat' split) <;> simp
@[simp] theorem endSearch_blockCounter (c : Nat) (b : Bool) (s : State) : (endSearch c b s).blockCounter = s.blockCounter := by
  unfold endSearch
  (repeat' split) <;> simp
@[simp] theorem endSearch_sync (c : Nat) (b : Bool) (s : State) : (endSearch c b s).sync = s.sync := by
  unfold endSearch
  (repeat' split) <;> simp
@[simp] theorem endSearch_hwKinds (c : Nat) (b : Bool) (s : State) : (endSearch c b s).hwKinds = s.hwKinds := by
  unfold endSearch
  (repeat' split) <;> simp
@[simp] theorem endSearch_stamp (c : Nat) (b : Bool) (s : State) : (endSearch c b s).stamp = s.stamp := by
  unfold endSearch
  (repeat' split) <;> simp
@[simp] theorem endSearch_prescale (c : Nat) (b : Bool) (s : State) : (endSearch c b s).prescale = s.prescale := by
  unfold endSearch
  (repeat' split) <;> simp
@[simp] theorem endSearch_stampUnit (c : Nat) (b : Bool) (s : State) : (endSearch c b s).stampUnit = s.stampUnit := by
  unfold endSearch
  (repeat' split) <;> simp
@[simp] theorem endSearch_slots (c : Nat) (b : Bool) (s : State) : (endSearch c b s).slots = s.slots := by
  unfold endSearch
  (repeat' split) <;> simp
@[simp] theorem endSearch_index (c : Nat) (b : Bool) (s : State) : (endSearch c b s).index = s.index := by
  unfold endSearch
  (repeat' split) <;> simp
@[simp] theorem endSearch_pool (c : Nat) (b : Bool) (s : State) : (endSearch c b s).pool = s.pool := by
  unfold endSearch
  (repeat' split) <;> simp
@[simp] theorem endSearch_free (c : Nat) (b : Bool) (s : State) : (endSearch c b s).free = s.free := by
  unfold endSearch
  (repeat' split) <;> simp
@[simp] theorem endSearch_sched (c : Nat) (b : Bool) (s : State) : (endSearch c b s).sched = s.sched := by
  unfold endSearch
  (repeat' split) <;> simp
@[simp] theorem endSearch_pointer (c : Nat) (b : Bool) (s : State) : (endSearch c b s).pointer = s.pointer := by
  unfold endSearch
  (repeat' split) <;> simp
@[simp] theorem endSearch_profiles (c : Nat) (b : Bool) (s : State) : (endSearch c b s).profiles = s.profiles := by
  unfold endSearch
  (repeat' split) <;> simp
@[simp] theorem endSearch_resp (c : Nat) (b : Bool) (s : State) : (endSearch c b s).resp = s.resp := by
  unfold endSearch
  (repeat' split) <;> simp
@[simp] theorem endSearch_linkOut (c : Nat) (b : Bool) (s : State) : (endSearch c b s).linkOut = s.linkOut := by
  unfold endSearch
  (repeat' split) <;> simp
@[simp] theorem endSearch_settings (c : Nat) (b : Bool) (s : State) : (endSearch c b s).settings = s.settings := by
  unfold endSearch
  (repeat' split) <;> simp
@[simp] theorem endSearch_inForce (c : Nat) (b : Bool) (s : State) : (endSearch c b s).inForce = s.inForce := by
  unfold endSearch
  (repeat' split) <;> simp
@[simp] theorem endSearch_lineA (c : Nat) (b : Bool) (s : State) : (endSearch c b s).lineA = s.lineA := by
  unfold endSearch
  (repeat' split) <;> simp
@[simp] theorem endSearch_lineB (c : Nat) (b : Bool) (s : State) : (endSearch c b s).lineB = s.lineB := by
  unfold endSearch
  (repeat' split) <;> simp
@[simp] theorem endSearch_due (c : Nat) (b : Bool) (s : State) : (endSearch c b s).due = s.due := by
  unfold endSearch
  (repeat' split) <;> simp

/-! ### requestSearch -/

@[simp] theorem requestSearch_pending (c : Nat) (b : Bool) (s : State) : (requestSearch c b s).pending = s.pending := by
  unfold requestSearch
  (repeat' split) <;> simp
@[simp] theorem requestSearch_phase (c : Nat) (b : Bool) (s : State) : (requestSearch c b s).phase = s.phase := by
  unfold requestSearch
  (repeat' split) <;> simp
@[simp] theorem requestSearch_blockCounter (c : Nat) (b : Bool) (s : State) : (requestSearch c b s).blockCounter = s.blockCounter := by
  unfold requestSearch
  (repeat' split) <;> simp
@[simp] theorem requestSearch_sync (c : Nat) (b : Bool) (s : State) : (requestSearch c b s).sync = s.sync := by
  unfold requestSearch
  (repeat' split) <;> simp
@[simp] theorem requestSearch_hwKinds (c : Nat) (b : Bool) (s : State) : (requestSearch c b s).hwKinds = s.hwKinds := by
  unfold requestSearch
  (repeat' split) <;> simp
@[simp] theorem requestSearch_stamp (c : Nat) (b : Bool) (s : State) : (requestSearch c b s).stamp = s.stamp := by
  unfold requestSearch
  (repeat' split) <;> simp
@[simp] theorem requestSearch_prescale (c : Nat) (b : Bool) (s : State) : (requestSearch c b s).prescale = s.prescale := by
  unfold requestSearch
  (repeat' split) <;> simp
@[simp] theorem requestSearch_stampUnit (c : Nat) (b : Bool) (s : State) : (requestSearch c b s).stampUnit = s.stampUnit := by
  unfold requestSearch
  (repeat' split) <;> simp
@[simp] theorem requestSearch_slots (c : Nat) (b : Bool) (s : State) : (requestSearch c b s).slots = s.slots := by
  unfold requestSearch
  (repeat' split) <;> simp
@[simp] theorem requestSearch_index (c : Nat) (b : Bool) (s : State) : (requestSearch c b s).index = s.index := by
  unfold requestSearch
  (repeat' split) <;> simp
@[simp] theorem requestSearch_pool (c : Nat) (b : Bool) (s : State) : (requestSearch c b s).pool = s.pool := by
  unfold requestSearch
  (repeat' split) <;> simp
@[simp] theorem requestSearch_free (c : Nat) (b : Bool) (s : State) : (requestSearch c b s).free = s.free := by
  unfold requestSearch
  (repeat' split) <;> simp
@[simp] theorem requestSearch_sched (c : Nat) (b : Bool) (s : State) : (requestSearch c b s).sched = s.sched := by
  unfold requestSearch
  (repeat' split) <;> simp
@[simp] theorem requestSearch_pointer (c : Nat) (b : Bool) (s : State) : (requestSearch c b s).pointer = s.pointer := by
  unfold requestSearch
  (repeat' split) <;> simp
@[simp] theorem requestSearch_profiles (c : Nat) (b : Bool) (s : State) : (requestSearch c b s).profiles = s.profiles := by
  unfold requestSearch
  (repeat' split) <;> simp
@[simp] theorem requestSearch_resp (c : Nat) (b : Bool) (s : State) : (requestSearch c b s).resp = s.resp := by
  unfold requestSearch
  (repeat' split) <;> simp
@[simp] theorem requestSearch_linkOut (c : Nat) (b : Bool) (s : State) : (requestSearch c b s).linkOut = s.linkOut := by
  unfold requestSearch
  (repeat' split) <;> simp
@[simp] theorem requestSearch_settings (c : Nat) (b : Bool) (s : State) : (requestSearch c b s).settings = s.settings := by
  unfold requestSearch
  (repeat' split) <;> simp
@[simp] theorem requestSearch_inForce (c : Nat) (b : Bool) (s : State) : (requestSearch c b s).inForce = s.inForce := by
  unfold requestSearch
  (repeat' split) <;> simp
@[simp] theorem requestSearch_lineA (c : Nat) (b : Bool) (s : State) : (requestSearch c b s).lineA = s.lineA := by
  unfold requestSearch
  (repeat' split) <;> simp
@[simp] theorem requestSearch_lineB (c : Nat) (b : Bool) (s : State) : (requestSearch c b s).lineB = s.lineB := by
  unfold requestSearch
  (repeat' split) <;> simp
@[simp] theorem requestSearch_due (c : Nat) (b : Bool) (s : State) : (requestSearch c b s).due = s.due := by
  unfold requestSearch
  (repeat' split) <;> simp

/-! ### changeMain -/

@[simp] theorem changeMain_pending (m : MainState) (c : Nat) (b : Bool) (s : State) : (changeMain m c b s).pending = s.pending := by
  unfold changeMain
  (repeat' split) <;> simp
@[simp] theorem changeMain_phase (m : MainState) (c : Nat) (b : Bool) (s : State) : (changeMain m c b s).phase = s.phase := by
  unfold changeMain
  (repeat' split) <;> simp
@[simp] theorem changeMain_blockCounter (m : MainState) (c : Nat) (b : Bool) (s : State) : (changeMain m c b s).blockCounter = s.blockCounter := by
  unfold changeMain
  (repeat' split) <;> simp
@[simp] theorem changeMain_sync (m : MainState) (c : Nat) (b : Bool) (s : State) : (changeMain m c b s).sync = s.sync := by
  unfold changeMain
  (repeat' split) <;> simp
@[simp] theorem changeMain_hwKinds (m : MainState) (c : Nat) (b : Bool) (s : State) : (changeMain m c b s).hwKinds = s.hwKinds := by
  unfold changeMain
  (repeat' split) <;> simp
@[simp] theorem changeMain_stamp (m : MainState) (c : Nat) (b : Bool) (s : State) : (changeMain m c b s).stamp = s.stamp := by
  unfold changeMain
  (repeat' split) <;> simp
@[simp] theorem changeMain_prescale (m : MainState) (c : Nat) (b : Bool) (s : State) : (changeMain m c b s).prescale = s.prescale := by
  unfold changeMain
  (repeat' split) <;> simp
@[simp] theorem changeMain_stampUnit (m : MainState) (c : Nat) (b : Bool) (s : State) : (changeMain m c b s).stampUnit = s.stampUnit := by
  unfold changeMain
  (repeat' split) <;> simp
@[simp] theorem changeMain_slots (m : MainState) (c : Nat) (b : Bool) (s : State) : (changeMain m c b s).slots = s.slots := by
  unfold changeMain
  (repeat' split) <;> simp
@[simp] theorem changeMain_index (m : MainState) (c : Nat) (b : Bool) (s : State) : (changeMain m c b s).index = s.index := by
  unfold changeMain
  (repeat' split) <;> simp
@[simp] theorem changeMain_pool (m : MainState) (c : Nat) (b : Bool) (s : State) : (changeMain m c b s).pool = s.pool := by
  unfold changeMain
  (repeat' split) <;> simp
@[simp] theorem changeMain_free (m : MainState) (c : Nat) (b : Bool) (s : State) : (changeMain m c b s).free = s.free := by
  unfold changeMain
  (repeat' split) <;> simp
@[simp] theorem changeMain_sched (m : MainState) (c : Nat) (b : Bool) (s : State) : (changeMain m c b s).sched = s.sched := by
  unfold changeMain
  (repeat' split) <;> simp
@[simp] theorem changeMain_pointer (m : MainState) (c : Nat) (b : Bool) (s : State) : (changeMain m c b s).pointer = s.pointer := by
  unfold changeMain
  (repeat' split) <;> simp
@[simp] theorem changeMain_profiles (m : MainState) (c : Nat) (b : Bool) (s : State) : (changeMain m c b s).profiles = s.profiles := by
  unfold changeMain
  (repeat' split) <;> simp
@[simp] theorem changeMain_resp (m : MainState) (c : Nat) (b : Bool) (s : State) : (changeMain m c b s).resp = s.resp := by
  unfold changeMain
  (repeat' split) <;> simp
@[simp] theorem changeMain_linkOut (m : MainState) (c : Nat) (b : Bool) (s : State) : (changeMain m c b s).linkOut = s.linkOut := by
  unfold changeMain
  (repeat' split) <;> simp
@[simp] theorem changeMain_settings (m : MainState) (c : Nat) (b : Bool) (s : State) : (changeMain m c b s).settings = s.settings := by
  unfold changeMain
  (repeat' split) <;> simp
@[simp] theorem changeMain_inForce (m : MainState) (c : Nat) (b : Bool) (s : State) : (changeMain m c b s).inForce = s.inForce := by
  unfold changeMain
  (repeat' split) <;> simp
@[simp] theorem changeMain_lineA (m : MainState) (c : Nat) (b : Bool) (s : State) : (changeMain m c b s).lineA = s.lineA := by
  unfold changeMain
  (repeat' split) <;> simp
@[simp] theorem changeMain_lineB (m : MainState) (c : Nat) (b : Bool) (s : State) : (changeMain m c b s).lineB = s.lineB := by
  unfold changeMain
  (repeat' split) <;> simp
@[simp] theorem changeMain_due (m : MainState) (c : Nat) (b : Bool) (s : State) : (changeMain m c b s).due = s.due := by
  unfold changeMain
  (repeat' split) <;> simp

/-! ### changeTone -/

@[simp] theorem changeTone_pending (t : ToneSub) (c : Nat) (s : State) : (changeTone t c s).pending = s.pending := by
  unfold changeTone
  (repeat' split) <;> simp
@[simp] theorem changeTone_phase (t : ToneSub) (c : Nat) (s : State) : (changeTone t c s).phase = s.phase := by
  unfold changeTone
  (repeat' split) <;> simp
@[simp] theorem changeTone_blockCounter (t : ToneSub) (c : Nat) (s : State) : (changeTone t c s).blockCounter = s.blockCounter := by
  unfold changeTone
  (repeat' split) <;> simp
@[simp] theorem changeTone_sync (t : ToneSub) (c : Nat) (s : State) : (changeTone t c s).sync = s.sync := by
  unfold changeTone
  (repeat' split) <;> simp
@[simp] theorem changeTone_hwKinds (t : ToneSub) (c : Nat) (s : State) : (changeTone t c s).hwKinds = s.hwKinds := by
  unfold changeTone
  (repeat' split) <;> simp
@[simp] theorem changeTone_stamp (t : ToneSub) (c : Nat) (s : State) : (changeTone t c s).stamp = s.stamp := by
  unfold changeTone
  (repeat' split) <;> simp
@[simp] theorem changeTone_prescale (t : ToneSub) (c : Nat) (s : State) : (changeTone t c s).prescale = s.prescale := by
  unfold changeTone
  (repeat' split) <;> simp
@[simp] theorem changeTone_stampUnit (t : ToneSub) (c : Nat) (s : State) : (changeTone t c s).stampUnit = s.stampUnit := by
  unfold changeTone
  (repeat' split) <;> simp
@[simp] theorem changeTone_slots (t : ToneSub) (c : Nat) (s : State) : (changeTone t c s).slots = s.slots := by
  unfold changeTone
  (repeat' split) <;> simp
@[simp] theorem changeTone_index (t : ToneSub) (c : Nat) (s : State) : (changeTone t c s).index = s.index := by
  unfold changeTone
  (repeat' split) <;> simp
@[simp] theorem changeTone_pool (t : ToneSub) (c : Nat) (s : State) : (changeTone t c s).pool = s.pool := by
  unfold changeTone
  (repeat' split) <;> simp
@[simp] theorem changeTone_free (t : ToneSub) (c : Nat) (s : State) : (changeTone t c s).free = s.free := by
  unfold changeTone
  (repeat' split) <;> simp
@[simp] theorem changeTone_sched (t : ToneSub) (c : Nat) (s : State) : (changeTone t c s).sched = s.sched := by
  unfold changeTone
  (repeat' split) <;> simp
@[simp] theorem changeTone_pointer (t : ToneSub) (c : Nat) (s : State) : (changeTone t c s).pointer = s.pointer := by
  unfold changeTone
  (repeat' split) <;> simp
@[simp] theorem changeTone_units (t : ToneSub) (c : Nat) (s : State) : (changeTone t c s).units = s.units := by
  unfold changeTone
  (repeat' split) <;> simp
@[simp] theorem changeTone_queue (t : ToneSub) (c : Nat) (s : State) : (changeTone t c s).queue = s.queue := by
  unfold changeTone
  (repeat' split) <;> simp
@[simp] theorem changeTone_profiles (t : ToneSub) (c : Nat) (s : State) : (changeTone t c s).profiles = s.profiles := by
  unfold changeTone
  (repeat' split) <;> simp
@[simp] theorem changeTone_resp (t : ToneSub) (c : Nat) (s : State) : (changeTone t c s).resp = s.resp := by
  unfold changeTone
  (repeat' split) <;> simp
@[simp] theorem changeTone_linkOut (t : ToneSub) (c : Nat) (s : State) : (changeTone t c s).linkOut = s.linkOut := by
  unfold changeTone
  (repeat' split) <;> simp
@[simp] theorem changeTone_settings (t : ToneSub) (c : Nat) (s : State) : (changeTone t c s).settings = s.settings := by
  unfold changeTone
  (repeat' split) <;> simp
@[simp] theorem changeTone_inForce (t : ToneSub) (c : Nat) (s : State) : (changeTone t c s).inForce = s.inForce := by
  unfold changeTone
  (repeat' split) <;> simp
@[simp] theorem changeTone_due (t : ToneSub) (c : Nat) (s : State) : (changeTone t c s).due = s.due := by
  unfold changeTone
  (repeat' split) <;> simp

/-! ### relocate -/

@[simp] theorem relocate_pending (c : Nat) (x : Place) (y : Option Place) (src : List Coeff) (s : State) : (relocate c x y src s).pending = s.pending := by
  unfold relocate
  dsimp only
  (repeat' split) <;> simp
@[simp] theorem relocate_phase (c : Nat) (x : Place) (y : Option Place) (src : List Coeff) (s : State) : (relocate c x y src s).phase = s.phase := by
  unfold relocate
  dsimp only
  (repeat' split) <;> simp
@[simp] theorem relocate_blockCounter (c : Nat) (x : Place) (y : Option Place) (src : List Coeff) (s : State) : (relocate c x y src s).blockCounter = s.blockCounter := by
  unfold relocate
  dsimp only
  (repeat' split) <;> simp
@[simp] theorem relocate_sync (c : Nat) (x : Place) (y : Option Place) (src : List Coeff) (s : State) : (relocate c x y src s).sync = s.sync := by
  unfold relocate
  dsimp only
  (repeat' split) <;> simp
@[simp] theorem relocate_hwKinds (c : Nat) (x : Place) (y : Option Place) (src : List Coeff) (s : State) : (relocate c x y src s).hwKinds = s.hwKinds := by
  unfold relocate
  dsimp only
  (repeat' split) <;> simp
@[simp] theorem relocate_stamp (c : Nat) (x : Place) (y : Option Place) (src : List Coeff) (s : State) : (relocate c x y src s).stamp = s.stamp := by
  unfold relocate
  dsimp only
  (repeat' split) <;> simp
@[simp] theorem relocate_prescale (c : Nat) (x : Place) (y : Option Place) (src : List Coeff) (s : State) : (relocate c x y src s).prescale = s.prescale := by
  unfold relocate
  dsimp only
  (repeat' split) <;> simp
@[simp] theorem relocate_stampUnit (c : Nat) (x : Place) (y : Option Place) (src : List Coeff) (s : State) : (relocate c x y src s).stampUnit = s.stampUnit := by
  unfold relocate
  dsimp only
  (repeat' split) <;> simp
@[simp] theorem relocate_slots (c : Nat) (x : Place) (y : Option Place) (src : List Coeff) (s : State) : (relocate c x y src s).slots = s.slots := by
  unfold relocate
  dsimp only
  (repeat' split) <;> simp
@[simp] theorem relocate_index (c : Nat) (x : Place) (y : Option Place) (src : List Coeff) (s : State) : (relocate c x y src s).index = s.index := by
  unfold relocate
  dsimp only
  (repeat' split) <;> simp
@[simp] theorem relocate_sched (c : Nat) (x : Place) (y : Option Place) (src : List Coeff) (s : State) : (relocate c x y src s).sched = s.sched := by
  unfold relocate
  dsimp only
  (repeat' split) <;> simp
@[simp] theorem relocate_pointer (c : Nat) (x : Place) (y : Option Place) (src : List Coeff) (s : State) : (relocate c x y src s).pointer = s.pointer := by
  unfold relocate
  dsimp only
  (repeat' split) <;> simp
@[simp] theorem relocate_units (c : Nat) (x : Place) (y : Option Place) (src : List Coeff) (s : State) : (relocate c x y src s).units = s.units := by
  unfold relocate
  dsimp only
  (repeat' split) <;> simp
@[simp] theorem relocate_queue (c : Nat) (x : Place) (y : Option Place) (src : List Coeff) (s : State) : (relocate c x y src s).queue = s.queue := by
  unfold relocate
  dsimp only
  (repeat' split) <;> simp
@[simp] theorem relocate_profiles (c : Nat) (x : Place) (y : Option Place) (src : List Coeff) (s : State) : (relocate c x y src s).profiles = s.profiles := by
  unfold relocate
  dsimp only
  (repeat' split) <;> simp
@[simp] theorem relocate_resp (c : Nat) (x : Place) (y : Option Place) (src : List Coeff) (s : State) : (relocate c x y src s).resp = s.resp := by
  unfold relocate
  dsimp only
  (repeat' split) <;> simp
@[simp] theorem relocate_linkOut (c : Nat) (x : Place) (y : Option Place) (src : List Coeff) (s : State) : (relocate c x y src s).linkOut = s.linkOut := by
  unfold relocate
  dsimp only
  (repeat' split) <;> simp
@[simp] theorem relocate_settings (c : Nat) (x : Place) (y : Option Place) (src : List Coeff) (s : State) : (relocate c x y src s).settings = s.settings := by
  unfold relocate
  dsimp only
  (repeat' split) <;> simp
@[simp] theorem relocate_inForce (c : Nat) (x : Place) (y : Option Place) (src : List Coeff) (s : State) : (relocate c x y src s).inForce = s.inForce := by
  unfold relocate
  dsimp only
  (repeat' split) <;> simp
@[simp] theorem relocate_lineA (c : Nat) (x : Place) (y : Option Place) (src : List Coeff) (s : State) : (relocate c x y src s).lineA = s.lineA := by
  unfold relocate
  dsimp only
  (repeat' split) <;> simp
@[simp] theorem relocate_lineB (c : Nat) (x : Place) (y : Option Place) (src : List Coeff) (s : State) : (relocate c x y src s).lineB = s.lineB := by
  unfold relocate
  dsimp only
  (repeat' split) <;> simp
@[simp] theorem relocate_due (c : Nat) (x : Place) (y : Option Place) (src : List Coeff) (s : State) : (relocate c x y src s).due = s.due := by
  unfold relocate
  dsimp only
  (repeat' split) <;> simp

/-! ### relocationEffects -/

@[simp] theorem relocationEffects_pending (c : Nat) (w : Windows) (b : Bool) (s : State) : (relocationEffects c w b s).pending = s.pending := by
  unfold relocationEffects
  (repeat' split) <;> simp
@[simp] theorem relocationEffects_phase (c : Nat) (w : Windows) (b : Bool) (s : State) : (relocationEffects c w b s).phase = s.phase := by
  unfold relocationEffects
  (repeat' split) <;> simp
@[simp] theorem relocationEffects_blockCounter (c : Nat) (w : Windows) (b : Bool) (s : State) : (relocationEffects c w b s).blockCounter = s.blockCounter := by
  unfold relocationEffects
  (repeat' split) <;> simp
@[simp] theorem relocationEffects_sync (c : Nat) (w : Windows) (b : Bool) (s : State) : (relocationEffects c w b s).sync = s.sync := by
  unfold relocationEffects
  (repeat' split) <;> simp
@[simp] theorem relocationEffects_hwKinds (c : Nat) (w : Windows) (b : Bool) (s : State) : (relocationEffects c w b s).hwKinds = s.hwKinds := by
  unfold relocationEffects
  (repeat' split) <;> simp
@[simp] theorem relocationEffects_stamp (c : Nat) (w : Windows) (b : Bool) (s : State) : (relocationEffects c w b s).stamp = s.stamp := by
  unfold relocationEffects
  (repeat' split) <;> simp
@[simp] theorem relocationEffects_prescale (c : Nat) (w : Windows) (b : Bool) (s : State) : (relocationEffects c w b s).prescale = s.prescale := by
  unfold relocationEffects
  (repeat' split) <;> simp
@[simp] theorem relocationEffects_stampUnit (c : Nat) (w : Windows) (b : Bool) (s : State) : (relocationEffects c w b s).stampUnit = s.stampUnit := by
  unfold relocationEffects
  (repeat' split) <;> simp
@[simp] theorem relocationEffects_slots (c : Nat) (w : Windows) (b : Bool) (s : State) : (relocationEffects c w b s).slots = s.slots := by
  unfold relocationEffects
  (repeat' split) <;> simp
@[simp] theorem relocationEffects_index (c : Nat) (w : Windows) (b : Bool) (s : State) : (relocationEffects c w b s).index = s.index := by
  unfold relocationEffects
  (repeat' split) <;> simp
@[simp] theorem relocationEffects_pool (c : Nat) (w : Windows) (b : Bool) (s : State) : (relocationEffects c w b s).pool = s.pool := by
  unfold relocationEffects
  (repeat' split) <;> simp
@[simp] theorem relocationEffects_free (c : Nat) (w : Windows) (b : Bool) (s : State) : (relocationEffects c w b s).free = s.free := by
  unfold relocationEffects
  (repeat' split) <;> simp
@[simp] theorem relocationEffects_sched (c : Nat) (w : Windows) (b : Bool) (s : State) : (relocationEffects c w b s).sched = s.sched := by
  unfold relocationEffects
  (repeat' split) <;> simp
@[simp] theorem relocationEffects_pointer (c : Nat) (w : Windows) (b : Bool) (s : State) : (relocationEffects c w b s).pointer = s.pointer := by
  unfold relocationEffects
  (repeat' split) <;> simp
@[simp] theorem relocationEffects_profiles (c : Nat) (w : Windows) (b : Bool) (s : State) : (relocationEffects c w b s).profiles = s.profiles := by
  unfold relocationEffects
  (repeat' split) <;> simp
@[simp] theorem relocationEffects_resp (c : Nat) (w : Windows) (b : Bool) (s : State) : (relocationEffects c w b s).resp = s.resp := by
  unfold relocationEffects
  (repeat' split) <;> simp
@[simp] theorem relocationEffects_linkOut (c : Nat) (w : Windows) (b : Bool) (s : State) : (relocationEffects c w b s).linkOut = s.linkOut := by
  unfold relocationEffects
  (repeat' split) <;> simp
@[simp] theorem relocationEffects_settings (c : Nat) (w : Windows) (b : Bool) (s : State) : (relocationEffects c w b s).settings = s.settings := by
  unfold relocationEffects
  (repeat' split) <;> simp
@[simp] theorem relocationEffects_inForce (c : Nat) (w : Windows) (b : Bool) (s : State) : (relocationEffects c w b s).inForce = s.inForce := by
  unfold relocationEffects
  (repeat' split) <;> simp
@[simp] theorem relocationEffects_lineA (c : Nat) (w : Windows) (b : Bool) (s : State) : (relocationEffects c w b s).lineA = s.lineA := by
  unfold relocationEffects
  (repeat' split) <;> simp
@[simp] theorem relocationEffects_lineB (c : Nat) (w : Windows) (b : Bool) (s : State) : (relocationEffects c w b s).lineB = s.lineB := by
  unfold relocationEffects
  (repeat' split) <;> simp
@[simp] theorem relocationEffects_due (c : Nat) (w : Windows) (b : Bool) (s : State) : (relocationEffects c w b s).due = s.due := by
  unfold relocationEffects
  (repeat' split) <;> simp

/-! ### useProfile -/

@[simp] theorem useProfile_pending (p : Nat) (s : State) : (useProfile p s).pending = s.pending := by simp [useProfile]
@[simp] theorem useProfile_phase (p : Nat) (s : State) : (useProfile p s).phase = s.phase := by simp [useProfile]
@[simp] theorem useProfile_blockCounter (p : Nat) (s : State) : (useProfile p s).blockCounter = s.blockCounter := by simp [useProfile]
@[simp] theorem useProfile_sync (p : Nat) (s : State) : (useProfile p s).sync = s.sync := by simp [useProfile]
@[simp] theorem useProfile_hwKinds (p : Nat) (s : State) : (useProfile p s).hwKinds = s.hwKinds := by simp [useProfile]
@[simp] theorem useProfile_stamp (p : Nat) (s : State) : (useProfile p s).stamp = s.stamp := by simp [useProfile]
@[simp] theorem useProfile_prescale (p : Nat) (s : State) : (useProfile p s).prescale = s.prescale := by simp [useProfile]
@[simp] theorem useProfile_stampUnit (p : Nat) (s : State) : (useProfile p s).stampUnit = s.stampUnit := by simp [useProfile]
@[simp] theorem useProfile_slots (p : Nat) (s : State) : (useProfile p s).slots = s.slots := by simp [useProfile]
@[simp] theorem useProfile_ctxs (p : Nat) (s : State) : (useProfile p s).ctxs = s.ctxs := by simp [useProfile]
@[simp] theorem useProfile_index (p : Nat) (s : State) : (useProfile p s).index = s.index := by simp [useProfile]
@[simp] theorem useProfile_pool (p : Nat) (s : State) : (useProfile p s).pool = s.pool := by simp [useProfile]
@[simp] theorem useProfile_free (p : Nat) (s : State) : (useProfile p s).free = s.free := by simp [useProfile]
@[simp] theorem useProfile_sched (p : Nat) (s : State) : (useProfile p s).sched = s.sched := by simp [useProfile]
@[simp] theorem useProfile_pointer (p : Nat) (s : State) : (useProfile p s).pointer = s.pointer := by simp [useProfile]
@[simp] theorem useProfile_units (p : Nat) (s : State) : (useProfile p s).units = s.units := by simp [useProfile]
@[simp] theorem useProfile_queue (p : Nat) (s : State) : (useProfile p s).queue = s.queue := by simp [useProfile]
@[simp] theorem useProfile_resp (p : Nat) (s : State) : (useProfile p s).resp = s.resp := by simp [useProfile]
@[simp] theorem useProfile_linkOut (p : Nat) (s : State) : (useProfile p s).linkOut = s.linkOut := by simp [useProfile]
@[simp] theorem useProfile_settings (p : Nat) (s : State) : (useProfile p s).settings = s.settings := by simp [useProfile]
@[simp] theorem useProfile_inForce (p : Nat) (s : State) : (useProfile p s).inForce = s.inForce := by simp [useProfile]
@[simp] theorem useProfile_lineA (p : Nat) (s : State) : (useProfile p s).lineA = s.lineA := by simp [useProfile]
@[simp] theorem useProfile_lineB (p : Nat) (s : State) : (useProfile p s).lineB = s.lineB := by simp [useProfile]
@[simp] theorem useProfile_due (p : Nat) (s : State) : (useProfile p s).due = s.due := by simp [useProfile]

/-! ### unuseProfile -/

@[simp] theorem unuseProfile_pending (p : Nat) (s : State) : (unuseProfile p s).pending = s.pending := by simp [unuseProfile]
@[simp] theorem unuseProfile_phase (p : Nat) (s : State) : (unuseProfile p s).phase = s.phase := by simp [unuseProfile]
@[simp] theorem unuseProfile_blockCounter (p : Nat) (s : State) : (unuseProfile p s).blockCounter = s.blockCounter := by simp [unuseProfile]
@[simp] theorem unuseProfile_sync (p : Nat) (s : State) : (unuseProfile p s).sync = s.sync := by simp [unuseProfile]
@[simp] theorem unuseProfile_hwKinds (p : Nat) (s : State) : (unuseProfile p s).hwKinds = s.hwKinds := by simp [unuseProfile]
@[simp] theorem unuseProfile_stamp (p : Nat) (s : State) : (unuseProfile p s).stamp = s.stamp := by simp [unuseProfile]
@[simp] theorem unuseProfile_prescale (p : Nat) (s : State) : (unuseProfile p s).prescale = s.prescale := by simp [unuseProfile]
@[simp] theorem unuseProfile_stampUnit (p : Nat) (s : State) : (unuseProfile p s).stampUnit = s.stampUnit := by simp [unuseProfile]
@[simp] theorem unuseProfile_slots (p : Nat) (s : State) : (unuseProfile p s).slots = s.slots := by simp [unuseProfile]
@[simp] theorem unuseProfile_ctxs (p : Nat) (s : State) : (unuseProfile p s).ctxs = s.ctxs := by simp [unuseProfile]
@[simp] theorem unuseProfile_index (p : Nat) (s : State) : (unuseProfile p s).index = s.index := by simp [unuseProfile]
@[simp] theorem unuseProfile_pool (p : Nat) (s : State) : (unuseProfile p s).pool = s.pool := by simp [unuseProfile]
@[simp] theorem unuseProfile_free (p : Nat) (s : State) : (unuseProfile p s).free = s.free := by simp [unuseProfile]
@[simp] theorem unuseProfile_sched (p : Nat) (s : State) : (unuseProfile p s).sched = s.sched := by simp [unuseProfile]
@[simp] theorem unuseProfile_pointer (p : Nat) (s : State) : (unuseProfile p s).pointer = s.pointer := by simp [unuseProfile]
@[simp] theorem unuseProfile_units (p : Nat) (s : State) : (unuseProfile p s).units = s.units := by simp [unuseProfile]
@[simp] theorem unuseProfile_queue (p : Nat) (s : State) : (unuseProfile p s).queue = s.queue := by simp [unuseProfile]
@[simp] theorem unuseProfile_resp (p : Nat) (s : State) : (unuseProfile p s).resp = s.resp := by simp [unuseProfile]
@[simp] theorem unuseProfile_linkOut (p : Nat) (s : State) : (unuseProfile p s).linkOut = s.linkOut := by simp [unuseProfile]
@[simp] theorem unuseProfile_settings (p : Nat) (s : State) : (unuseProfile p s).settings = s.settings := by simp [unuseProfile]
@[simp] theorem unuseProfile_inForce (p : Nat) (s : State) : (unuseProfile p s).inForce = s.inForce := by simp [unuseProfile]
@[simp] theorem unuseProfile_lineA (p : Nat) (s : State) : (unuseProfile p s).lineA = s.lineA := by simp [unuseProfile]
@[simp] theorem unuseProfile_lineB (p : Nat) (s : State) : (unuseProfile p s).lineB = s.lineB := by simp [unuseProfile]
@[simp] theorem unuseProfile_due (p : Nat) (s : State) : (unuseProfile p s).due = s.due := by simp [unuseProfile]

/-! ### retire -/

@[simp] theorem retire_pending (c : Nat) (s : State) : (retire c s).pending = s.pending := by
  unfold retire
  (repeat' split) <;> simp
@[simp] theorem retire_phase (c : Nat) (s : State) : (retire c s).phase = s.phase := by
  unfold retire
  (repeat' split) <;> simp
@[simp] theorem retire_blockCounter (c : Nat) (s : State) : (retire c s).blockCounter = s.blockCounter := by
  unfold retire
  (repeat' split) <;> simp
@[simp] theorem retire_sync (c : Nat) (s : State) : (retire c s).sync = s.sync := by
  unfold retire
  (repeat' split) <;> simp
@[simp] theorem retire_hwKinds (c : Nat) (s : State) : (retire c s).hwKinds = s.hwKinds := by
  unfold retire
  (repeat' split) <;> simp
@[simp] theorem retire_stamp (c : Nat) (s : State) : (retire c s).stamp = s.stamp := by
  unfold retire
  (repeat' split) <;> simp
@[simp] theorem retire_prescale (c : Nat) (s : State) : (retire c s).prescale = s.prescale := by
  unfold retire
  (repeat' split) <;> simp
@[simp] theorem retire_stampUnit (c : Nat) (s : State) : (retire c s).stampUnit = s.stampUnit := by
  unfold retire
  (repeat' split) <;> simp
@[simp] theorem retire_slots (c : Nat) (s : State) : (retire c s).slots = s.slots := by
  unfold retire
  (repeat' split) <;> simp
@[simp] theorem retire_pool (c : Nat) (s : State) : (retire c s).pool = s.pool := by
  unfold retire
  (repeat' split) <;> simp
@[simp] theorem retire_sched (c : Nat) (s : State) : (retire c s).sched = s.sched := by
  unfold retire
  (repeat' split) <;> simp
@[simp] theorem retire_pointer (c : Nat) (s : State) : (retire c s).pointer = s.pointer := by
  unfold retire
  (repeat' split) <;> simp
@[simp] theorem retire_resp (c : Nat) (s : State) : (retire c s).resp = s.resp := by
  unfold retire
  (repeat' split) <;> simp
@[simp] theorem retire_linkOut (c : Nat) (s : State) : (retire c s).linkOut = s.linkOut := by
  unfold retire
  (repeat' split) <;> simp
@[simp] theorem retire_settings (c : Nat) (s : State) : (retire c s).settings = s.settings := by
  unfold retire
  (repeat' split) <;> simp
@[simp] theorem retire_inForce (c : Nat) (s : State) : (retire c s).inForce = s.inForce := by
  unfold retire
  (repeat' split) <;> simp
@[simp] theorem retire_lineA (c : Nat) (s : State) : (retire c s).lineA = s.lineA := by
  unfold retire
  (repeat' split) <;> simp
@[simp] theorem retire_lineB (c : Nat) (s : State) : (retire c s).lineB = s.lineB := by
  unfold retire
  (repeat' split) <;> simp
@[simp] theorem retire_due (c : Nat) (s : State) : (retire c s).due = s.due := by
  unfold retire
  (repeat' split) <;> simp

/-! ### handOff -/

@[simp] theorem handOff_pending (un : SearchUnit) (b : Bool) (s : State) : (handOff un b s).pending = s.pending := by
  unfold handOff
  (repeat' split) <;> simp
@[simp] theorem handOff_phase (un : SearchUnit) (b : Bool) (s : State) : (handOff un b s).phase = s.phase := by
  unfold handOff
  (repeat' split) <;> simp
@[simp] theorem handOff_blockCounter (un : SearchUnit) (b : Bool) (s : State) : (handOff un b s).blockCounter = s.blockCounter := by
  unfold handOff
  (repeat' split) <;> simp
@[simp] theorem handOff_sync (un : SearchUnit) (b : Bool) (s : State) : (handOff un b s).sync = s.sync := by
  unfold handOff
  (repeat' split) <;> simp
@[simp] theorem handOff_hwKinds (un : SearchUnit) (b : Bool) (s : State) : (handOff un b s).hwKinds = s.hwKinds := by
  unfold handOff
  (repeat' split) <;> simp
@[simp] theorem handOff_stamp (un : SearchUnit) (b : Bool) (s : State) : (handOff un b s).stamp = s.stamp := by
  unfold handOff
  (repeat' split) <;> simp
@[simp] theorem handOff_prescale (un : SearchUnit) (b : Bool) (s : State) : (handOff un b s).prescale = s.prescale := by
  unfold handOff
  (repeat' split) <;> simp
@[simp] theorem handOff_stampUnit (un : SearchUnit) (b : Bool) (s : State) : (handOff un b s).stampUnit = s.stampUnit := by
  unfold handOff
  (repeat' split) <;> simp
@[simp] theorem handOff_slots (un : SearchUnit) (b : Bool) (s : State) : (handOff un b s).slots = s.slots := by
  unfold handOff
  (repeat' split) <;> simp
@[simp] theorem handOff_index (un : SearchUnit) (b : Bool) (s : State) : (handOff un b s).index = s.index := by
  unfold handOff
  (repeat' split) <;> simp
@[simp] theorem handOff_sched (un : SearchUnit) (b : Bool) (s : State) : (handOff un b s).sched = s.sched := by
  unfold handOff
  (repeat' split) <;> simp
@[simp] theorem handOff_pointer (un : SearchUnit) (b : Bool) (s : State) : (handOff un b s).pointer = s.pointer := by
  unfold handOff
  (repeat' split) <;> simp
@[simp] theorem handOff_profiles (un : SearchUnit) (b : Bool) (s : State) : (handOff un b s).profiles = s.profiles := by
  unfold handOff
  (repeat' split) <;> simp
@[simp] theorem handOff_resp (un : SearchUnit) (b : Bool) (s : State) : (handOff un b s).resp = s.resp := by
  unfold handOff
  (repeat' split) <;> simp
@[simp] theorem handOff_linkOut (un : SearchUnit) (b : Bool) (s : State) : (handOff un b s).linkOut = s.linkOut := by
  unfold handOff
  (repeat' split) <;> simp
@[simp] theorem handOff_settings (un : SearchUnit) (b : Bool) (s : State) : (handOff un b s).settings = s.settings := by
  unfold handOff
  (repeat' split) <;> simp
@[simp] theorem handOff_inForce (un : SearchUnit) (b : Bool) (s : State) : (handOff un b s).inForce = s.inForce := by
  unfold handOff
  (repeat' split) <;> simp
@[simp] theorem handOff_due (un : SearchUnit) (b : Bool) (s : State) : (handOff un b s).due = s.due := by
  unfold handOff
  (repeat' split) <;> simp

/-! ### completeSearch -/

@[simp] theorem completeSearch_pending (u : Nat) (un : SearchUnit) (b : Bool) (s : State) : (completeSearch u un b s).pending = s.pending := by simp [completeSearch]
@[simp] theorem completeSearch_phase (u : Nat) (un : SearchUnit) (b : Bool) (s : State) : (completeSearch u un b s).phase = s.phase := by simp [completeSearch]
@[simp] theorem completeSearch_blockCounter (u : Nat) (un : SearchUnit) (b : Bool) (s : State) : (completeSearch u un b s).blockCounter = s.blockCounter := by simp [completeSearch]
@[simp] theorem completeSearch_sync (u : Nat) (un : SearchUnit) (b : Bool) (s : State) : (completeSearch u un b s).sync = s.sync := by simp [completeSearch]
@[simp] theorem completeSearch_hwKinds (u : Nat) (un : SearchUnit) (b : Bool) (s : State) : (completeSearch u un b s).hwKinds = s.hwKinds := by simp [completeSearch]
@[simp] theorem completeSearch_stamp (u : Nat) (un : SearchUnit) (b : Bool) (s : State) : (completeSearch u un b s).stamp = s.stamp := by simp [completeSearch]
@[simp] theorem completeSearch_prescale (u : Nat) (un : SearchUnit) (b : Bool) (s : State) : (completeSearch u un b s).prescale = s.prescale := by simp [completeSearch]
@[simp] theorem completeSearch_stampUnit (u : Nat) (un : SearchUnit) (b : Bool) (s : State) : (completeSearch u un b s).stampUnit = s.stampUnit := by simp [completeSearch]
@[simp] theorem completeSearch_slots (u : Nat) (un : SearchUnit) (b : Bool) (s : State) : (completeSearch u un b s).slots = s.slots := by simp [completeSearch]
@[simp] theorem completeSearch_index (u : Nat) (un : SearchUnit) (b : Bool) (s : State) : (completeSearch u un b s).index = s.index := by simp [completeSearch]
@[simp] theorem completeSearch_sched (u : Nat) (un : SearchUnit) (b : Bool) (s : State) : (completeSearch u un b s).sched = s.sched := by simp [completeSearch]
@[simp] theorem completeSearch_pointer (u : Nat) (un : SearchUnit) (b : Bool) (s : State) : (completeSearch u un b s).pointer = s.pointer := by simp [completeSearch]
@[simp] theorem completeSearch_profiles (u : Nat) (un : SearchUnit) (b : Bool) (s : State) : (completeSearch u un b s).profiles = s.profiles := by simp [completeSearch]
@[simp] theorem completeSearch_resp (u : Nat) (un : SearchUnit) (b : Bool) (s : State) : (completeSearch u un b s).resp = s.resp := by simp [completeSearch]
@[simp] theorem completeSearch_linkOut (u : Nat) (un : SearchUnit) (b : Bool) (s : State) : (completeSearch u un b s).linkOut = s.linkOut := by simp [completeSearch]
@[simp] theorem completeSearch_settings (u : Nat) (un : SearchUnit) (b : Bool) (s : State) : (completeSearch u un b s).settings = s.settings := by simp [completeSearch]
@[simp] theorem completeSearch_inForce (u : Nat) (un : SearchUnit) (b : Bool) (s : State) : (completeSearch u un b s).inForce = s.inForce := by simp [completeSearch]
@[simp] theorem completeSearch_due (u : Nat) (un : SearchUnit) (b : Bool) (s : State) : (completeSearch u un b s).due = s.due := by simp [completeSearch]

/-! ### failSearch -/

@[simp] theorem failSearch_pending (u : Nat) (un : SearchUnit) (b : Bool) (s : State) : (failSearch u un b s).pending = s.pending := by simp [failSearch]
@[simp] theorem failSearch_phase (u : Nat) (un : SearchUnit) (b : Bool) (s : State) : (failSearch u un b s).phase = s.phase := by simp [failSearch]
@[simp] theorem failSearch_blockCounter (u : Nat) (un : SearchUnit) (b : Bool) (s : State) : (failSearch u un b s).blockCounter = s.blockCounter := by simp [failSearch]
@[simp] theorem failSearch_sync (u : Nat) (un : SearchUnit) (b : Bool) (s : State) : (failSearch u un b s).sync = s.sync := by simp [failSearch]
@[simp] theorem failSearch_hwKinds (u : Nat) (un : SearchUnit) (b : Bool) (s : State) : (failSearch u un b s).hwKinds = s.hwKinds := by simp [failSearch]
@[simp] theorem failSearch_stamp (u : Nat) (un : SearchUnit) (b : Bool) (s : State) : (failSearch u un b s).stamp = s.stamp := by simp [failSearch]
@[simp] theorem failSearch_prescale (u : Nat) (un : SearchUnit) (b : Bool) (s : State) : (failSearch u un b s).prescale = s.prescale := by simp [failSearch]
@[simp] theorem failSearch_stampUnit (u : Nat) (un : SearchUnit) (b : Bool) (s : State) : (failSearch u un b s).stampUnit = s.stampUnit := by simp [failSearch]
@[simp] theorem failSearch_slots (u : Nat) (un : SearchUnit) (b : Bool) (s : State) : (failSearch u un b s).slots = s.slots := by simp [failSearch]
@[simp] theorem failSearch_index (u : Nat) (un : SearchUnit) (b : Bool) (s : State) : (failSearch u un b s).index = s.index := by simp [failSearch]
@[simp] theorem failSearch_pool (u : Nat) (un : SearchUnit) (b : Bool) (s : State) : (failSearch u un b s).pool = s.pool := by simp [failSearch]
@[simp] theorem failSearch_free (u : Nat) (un : SearchUnit) (b : Bool) (s : State) : (failSearch u un b s).free = s.free := by simp [failSearch]
@[simp] theorem failSearch_sched (u : Nat) (un : SearchUnit) (b : Bool) (s : State) : (failSearch u un b s).sched = s.sched := by simp [failSearch]
@[simp] theorem failSearch_pointer (u : Nat) (un : SearchUnit) (b : Bool) (s : State) : (failSearch u un b s).pointer = s.pointer := by simp [failSearch]
@[simp] theorem failSearch_profiles (u : Nat) (un : SearchUnit) (b : Bool) (s : State) : (failSearch u un b s).profiles = s.profiles := by simp [failSearch]
@[simp] theorem failSearch_resp (u : Nat) (un : SearchUnit) (b : Bool) (s : State) : (failSearch u un b s).resp = s.resp := by simp [failSearch]
@[simp] theorem failSearch_linkOut (u : Nat) (un : SearchUnit) (b : Bool) (s : State) : (failSearch u un b s).linkOut = s.linkOut := by simp [failSearch]
@[simp] theorem failSearch_settings (u : Nat) (un : SearchUnit) (b : Bool) (s : State) : (failSearch u un b s).settings = s.settings := by simp [failSearch]
@[simp] theorem failSearch_inForce (u : Nat) (un : SearchUnit) (b : Bool) (s : State) : (failSearch u un b s).inForce = s.inForce := by simp [failSearch]
@[simp] theorem failSearch_due (u : Nat) (un : SearchUnit) (b : Bool) (s : State) : (failSearch u un b s).due = s.due := by simp [failSearch]

/-! ### takeConvergence -/

@[simp] theorem takeConvergence_pending (c : Nat) (s : State) : (takeConvergence c s).pending = s.pending := by
  unfold takeConvergence
  (repeat' split) <;> simp
@[simp] theorem takeConvergence_phase (c : Nat) (s : State) : (takeConvergence c s).phase = s.phase := by
  unfold takeConvergence
  (repeat' split) <;> simp
@[simp] theorem takeConvergence_blockCounter (c : Nat) (s : State) : (takeConvergence c s).blockCounter = s.blockCounter := by
  unfold takeConvergence
  (repeat' split) <;> simp
@[simp] theorem takeConvergence_sync (c : Nat) (s : State) : (takeConvergence c s).sync = s.sync := by
  unfold takeConvergence
  (repeat' split) <;> simp
@[simp] theorem takeConvergence_hwKinds (c : Nat) (s : State) : (takeConvergence c s).hwKinds = s.hwKinds := by
  unfold takeConvergence
  (repeat' split) <;> simp
@[simp] theorem takeConvergence_stamp (c : Nat) (s : State) : (takeConvergence c s).stamp = s.stamp := by
  unfold takeConvergence
  (repeat' split) <;> simp
@[simp] theorem takeConvergence_prescale (c : Nat) (s : State) : (takeConvergence c s).prescale = s.prescale := by
  unfold takeConvergence
  (repeat' split) <;> simp
@[simp] theorem takeConvergence_stampUnit (c : Nat) (s : State) : (takeConvergence c s).stampUnit = s.stampUnit := by
  unfold takeConvergence
  (repeat' split) <;> simp
@[simp] theorem takeConvergence_slots (c : Nat) (s : State) : (takeConvergence c s).slots = s.slots := by
  unfold takeConvergence
  (repeat' split) <;> simp
@[simp] theorem takeConvergence_index (c : Nat) (s : State) : (takeConvergence c s).index = s.index := by
  unfold takeConvergence
  (repeat' split) <;> simp
@[simp] theorem takeConvergence_pool (c : Nat) (s : State) : (takeConvergence c s).pool = s.pool := by
  unfold takeConvergence
  (repeat' split) <;> simp
@[simp] theorem takeConvergence_free (c : Nat) (s : State) : (takeConvergence c s).free = s.free := by
  unfold takeConvergence
  (repeat' split) <;> simp
@[simp] theorem takeConvergence_sched (c : Nat) (s : State) : (takeConvergence c s).sched = s.sched := by
  unfold takeConvergence
  (repeat' split) <;> simp
@[simp] theorem takeConvergence_pointer (c : Nat) (s : State) : (takeConvergence c s).pointer = s.pointer := by
  unfold takeConvergence
  (repeat' split) <;> simp
@[simp] theorem takeConvergence_profiles (c : Nat) (s : State) : (takeConvergence c s).profiles = s.profiles := by
  unfold takeConvergence
  (repeat' split) <;> simp
@[simp] theorem takeConvergence_resp (c : Nat) (s : State) : (takeConvergence c s).resp = s.resp := by
  unfold takeConvergence
  (repeat' split) <;> simp
@[simp] theorem takeConvergence_linkOut (c : Nat) (s : State) : (takeConvergence c s).linkOut = s.linkOut := by
  unfold takeConvergence
  (repeat' split) <;> simp
@[simp] theorem takeConvergence_settings (c : Nat) (s : State) : (takeConvergence c s).settings = s.settings := by
  unfold takeConvergence
  (repeat' split) <;> simp
@[simp] theorem takeConvergence_inForce (c : Nat) (s : State) : (takeConvergence c s).inForce = s.inForce := by
  unfold takeConvergence
  (repeat' split) <;> simp
@[simp] theorem takeConvergence_due (c : Nat) (s : State) : (takeConvergence c s).due = s.due := by
  unfold takeConvergence
  (repeat' split) <;> simp

/-! ### takeExpiry -/

@[simp] theorem takeExpiry_pending (c : Nat) (s : State) : (takeExpiry c s).pending = s.pending := by
  unfold takeExpiry
  (repeat' split) <;> simp
@[simp] theorem takeExpiry_phase (c : Nat) (s : State) : (takeExpiry c s).phase = s.phase := by
  unfold takeExpiry
  (repeat' split) <;> simp
@[simp] theorem takeExpiry_blockCounter (c : Nat) (s : State) : (takeExpiry c s).blockCounter = s.blockCounter := by
  unfold takeExpiry
  (repeat' split) <;> simp
@[simp] theorem takeExpiry_sync (c : Nat) (s : State) : (takeExpiry c s).sync = s.sync := by
  unfold takeExpiry
  (repeat' split) <;> simp
@[simp] theorem takeExpiry_hwKinds (c : Nat) (s : State) : (takeExpiry c s).hwKinds = s.hwKinds := by
  unfold takeExpiry
  (repeat' split) <;> simp
@[simp] theorem takeExpiry_stamp (c : Nat) (s : State) : (takeExpiry c s).stamp = s.stamp := by
  unfold takeExpiry
  (repeat' split) <;> simp
@[simp] theorem takeExpiry_prescale (c : Nat) (s : State) : (takeExpiry c s).prescale = s.prescale := by
  unfold takeExpiry
  (repeat' split) <;> simp
@[simp] theorem takeExpiry_stampUnit (c : Nat) (s : State) : (takeExpiry c s).stampUnit = s.stampUnit := by
  unfold takeExpiry
  (repeat' split) <;> simp
@[simp] theorem takeExpiry_slots (c : Nat) (s : State) : (takeExpiry c s).slots = s.slots := by
  unfold takeExpiry
  (repeat' split) <;> simp
@[simp] theorem takeExpiry_index (c : Nat) (s : State) : (takeExpiry c s).index = s.index := by
  unfold takeExpiry
  (repeat' split) <;> simp
@[simp] theorem takeExpiry_pool (c : Nat) (s : State) : (takeExpiry c s).pool = s.pool := by
  unfold takeExpiry
  (repeat' split) <;> simp
@[simp] theorem takeExpiry_free (c : Nat) (s : State) : (takeExpiry c s).free = s.free := by
  unfold takeExpiry
  (repeat' split) <;> simp
@[simp] theorem takeExpiry_sched (c : Nat) (s : State) : (takeExpiry c s).sched = s.sched := by
  unfold takeExpiry
  (repeat' split) <;> simp
@[simp] theorem takeExpiry_pointer (c : Nat) (s : State) : (takeExpiry c s).pointer = s.pointer := by
  unfold takeExpiry
  (repeat' split) <;> simp
@[simp] theorem takeExpiry_profiles (c : Nat) (s : State) : (takeExpiry c s).profiles = s.profiles := by
  unfold takeExpiry
  (repeat' split) <;> simp
@[simp] theorem takeExpiry_resp (c : Nat) (s : State) : (takeExpiry c s).resp = s.resp := by
  unfold takeExpiry
  (repeat' split) <;> simp
@[simp] theorem takeExpiry_linkOut (c : Nat) (s : State) : (takeExpiry c s).linkOut = s.linkOut := by
  unfold takeExpiry
  (repeat' split) <;> simp
@[simp] theorem takeExpiry_settings (c : Nat) (s : State) : (takeExpiry c s).settings = s.settings := by
  unfold takeExpiry
  (repeat' split) <;> simp
@[simp] theorem takeExpiry_inForce (c : Nat) (s : State) : (takeExpiry c s).inForce = s.inForce := by
  unfold takeExpiry
  (repeat' split) <;> simp
@[simp] theorem takeExpiry_due (c : Nat) (s : State) : (takeExpiry c s).due = s.due := by
  unfold takeExpiry
  (repeat' split) <;> simp

/-! ### takeCut -/

@[simp] theorem takeCut_pending (c : Nat) (s : State) : (takeCut c s).pending = s.pending := by
  unfold takeCut
  (repeat' split) <;> simp
@[simp] theorem takeCut_phase (c : Nat) (s : State) : (takeCut c s).phase = s.phase := by
  unfold takeCut
  (repeat' split) <;> simp
@[simp] theorem takeCut_blockCounter (c : Nat) (s : State) : (takeCut c s).blockCounter = s.blockCounter := by
  unfold takeCut
  (repeat' split) <;> simp
@[simp] theorem takeCut_sync (c : Nat) (s : State) : (takeCut c s).sync = s.sync := by
  unfold takeCut
  (repeat' split) <;> simp
@[simp] theorem takeCut_hwKinds (c : Nat) (s : State) : (takeCut c s).hwKinds = s.hwKinds := by
  unfold takeCut
  (repeat' split) <;> simp
@[simp] theorem takeCut_stamp (c : Nat) (s : State) : (takeCut c s).stamp = s.stamp := by
  unfold takeCut
  (repeat' split) <;> simp
@[simp] theorem takeCut_prescale (c : Nat) (s : State) : (takeCut c s).prescale = s.prescale := by
  unfold takeCut
  (repeat' split) <;> simp
@[simp] theorem takeCut_stampUnit (c : Nat) (s : State) : (takeCut c s).stampUnit = s.stampUnit := by
  unfold takeCut
  (repeat' split) <;> simp
@[simp] theorem takeCut_slots (c : Nat) (s : State) : (takeCut c s).slots = s.slots := by
  unfold takeCut
  (repeat' split) <;> simp
@[simp] theorem takeCut_index (c : Nat) (s : State) : (takeCut c s).index = s.index := by
  unfold takeCut
  (repeat' split) <;> simp
@[simp] theorem takeCut_free (c : Nat) (s : State) : (takeCut c s).free = s.free := by
  unfold takeCut
  (repeat' split) <;> simp
@[simp] theorem takeCut_sched (c : Nat) (s : State) : (takeCut c s).sched = s.sched := by
  unfold takeCut
  (repeat' split) <;> simp
@[simp] theorem takeCut_pointer (c : Nat) (s : State) : (takeCut c s).pointer = s.pointer := by
  unfold takeCut
  (repeat' split) <;> simp
@[simp] theorem takeCut_profiles (c : Nat) (s : State) : (takeCut c s).profiles = s.profiles := by
  unfold takeCut
  (repeat' split) <;> simp
@[simp] theorem takeCut_resp (c : Nat) (s : State) : (takeCut c s).resp = s.resp := by
  unfold takeCut
  (repeat' split) <;> simp
@[simp] theorem takeCut_linkOut (c : Nat) (s : State) : (takeCut c s).linkOut = s.linkOut := by
  unfold takeCut
  (repeat' split) <;> simp
@[simp] theorem takeCut_settings (c : Nat) (s : State) : (takeCut c s).settings = s.settings := by
  unfold takeCut
  (repeat' split) <;> simp
@[simp] theorem takeCut_inForce (c : Nat) (s : State) : (takeCut c s).inForce = s.inForce := by
  unfold takeCut
  (repeat' split) <;> simp
@[simp] theorem takeCut_due (c : Nat) (s : State) : (takeCut c s).due = s.due := by
  unfold takeCut
  (repeat' split) <;> simp

/-! ### takeRecovery -/

@[simp] theorem takeRecovery_pending (c : Nat) (s : State) : (takeRecovery c s).pending = s.pending := by
  unfold takeRecovery
  (repeat' split) <;> simp
@[simp] theorem takeRecovery_phase (c : Nat) (s : State) : (takeRecovery c s).phase = s.phase := by
  unfold takeRecovery
  (repeat' split) <;> simp
@[simp] theorem takeRecovery_blockCounter (c : Nat) (s : State) : (takeRecovery c s).blockCounter = s.blockCounter := by
  unfold takeRecovery
  (repeat' split) <;> simp
@[simp] theorem takeRecovery_sync (c : Nat) (s : State) : (takeRecovery c s).sync = s.sync := by
  unfold takeRecovery
  (repeat' split) <;> simp
@[simp] theorem takeRecovery_hwKinds (c : Nat) (s : State) : (takeRecovery c s).hwKinds = s.hwKinds := by
  unfold takeRecovery
  (repeat' split) <;> simp
@[simp] theorem takeRecovery_stamp (c : Nat) (s : State) : (takeRecovery c s).stamp = s.stamp := by
  unfold takeRecovery
  (repeat' split) <;> simp
@[simp] theorem takeRecovery_prescale (c : Nat) (s : State) : (takeRecovery c s).prescale = s.prescale := by
  unfold takeRecovery
  (repeat' split) <;> simp
@[simp] theorem takeRecovery_stampUnit (c : Nat) (s : State) : (takeRecovery c s).stampUnit = s.stampUnit := by
  unfold takeRecovery
  (repeat' split) <;> simp
@[simp] theorem takeRecovery_slots (c : Nat) (s : State) : (takeRecovery c s).slots = s.slots := by
  unfold takeRecovery
  (repeat' split) <;> simp
@[simp] theorem takeRecovery_index (c : Nat) (s : State) : (takeRecovery c s).index = s.index := by
  unfold takeRecovery
  (repeat' split) <;> simp
@[simp] theorem takeRecovery_pool (c : Nat) (s : State) : (takeRecovery c s).pool = s.pool := by
  unfold takeRecovery
  (repeat' split) <;> simp
@[simp] theorem takeRecovery_free (c : Nat) (s : State) : (takeRecovery c s).free = s.free := by
  unfold takeRecovery
  (repeat' split) <;> simp
@[simp] theorem takeRecovery_sched (c : Nat) (s : State) : (takeRecovery c s).sched = s.sched := by
  unfold takeRecovery
  (repeat' split) <;> simp
@[simp] theorem takeRecovery_pointer (c : Nat) (s : State) : (takeRecovery c s).pointer = s.pointer := by
  unfold takeRecovery
  (repeat' split) <;> simp
@[simp] theorem takeRecovery_profiles (c : Nat) (s : State) : (takeRecovery c s).profiles = s.profiles := by
  unfold takeRecovery
  (repeat' split) <;> simp
@[simp] theorem takeRecovery_resp (c : Nat) (s : State) : (takeRecovery c s).resp = s.resp := by
  unfold takeRecovery
  (repeat' split) <;> simp
@[simp] theorem takeRecovery_linkOut (c : Nat) (s : State) : (takeRecovery c s).linkOut = s.linkOut := by
  unfold takeRecovery
  (repeat' split) <;> simp
@[simp] theorem takeRecovery_settings (c : Nat) (s : State) : (takeRecovery c s).settings = s.settings := by
  unfold takeRecovery
  (repeat' split) <;> simp
@[simp] theorem takeRecovery_inForce (c : Nat) (s : State) : (takeRecovery c s).inForce = s.inForce := by
  unfold takeRecovery
  (repeat' split) <;> simp
@[simp] theorem takeRecovery_due (c : Nat) (s : State) : (takeRecovery c s).due = s.due := by
  unfold takeRecovery
  (repeat' split) <;> simp

/-! ### takeLevel -/

@[simp] theorem takeLevel_pending (c : Nat) (d : Dir) (s : State) : (takeLevel c d s).pending = s.pending := by simp [takeLevel]
@[simp] theorem takeLevel_phase (c : Nat) (d : Dir) (s : State) : (takeLevel c d s).phase = s.phase := by simp [takeLevel]
@[simp] theorem takeLevel_blockCounter (c : Nat) (d : Dir) (s : State) : (takeLevel c d s).blockCounter = s.blockCounter := by simp [takeLevel]
@[simp] theorem takeLevel_sync (c : Nat) (d : Dir) (s : State) : (takeLevel c d s).sync = s.sync := by simp [takeLevel]
@[simp] theorem takeLevel_hwKinds (c : Nat) (d : Dir) (s : State) : (takeLevel c d s).hwKinds = s.hwKinds := by simp [takeLevel]
@[simp] theorem takeLevel_stamp (c : Nat) (d : Dir) (s : State) : (takeLevel c d s).stamp = s.stamp := by simp [takeLevel]
@[simp] theorem takeLevel_prescale (c : Nat) (d : Dir) (s : State) : (takeLevel c d s).prescale = s.prescale := by simp [takeLevel]
@[simp] theorem takeLevel_stampUnit (c : Nat) (d : Dir) (s : State) : (takeLevel c d s).stampUnit = s.stampUnit := by simp [takeLevel]
@[simp] theorem takeLevel_slots (c : Nat) (d : Dir) (s : State) : (takeLevel c d s).slots = s.slots := by simp [takeLevel]
@[simp] theorem takeLevel_index (c : Nat) (d : Dir) (s : State) : (takeLevel c d s).index = s.index := by simp [takeLevel]
@[simp] theorem takeLevel_pool (c : Nat) (d : Dir) (s : State) : (takeLevel c d s).pool = s.pool := by simp [takeLevel]
@[simp] theorem takeLevel_free (c : Nat) (d : Dir) (s : State) : (takeLevel c d s).free = s.free := by simp [takeLevel]
@[simp] theorem takeLevel_sched (c : Nat) (d : Dir) (s : State) : (takeLevel c d s).sched = s.sched := by simp [takeLevel]
@[simp] theorem takeLevel_pointer (c : Nat) (d : Dir) (s : State) : (takeLevel c d s).pointer = s.pointer := by simp [takeLevel]
@[simp] theorem takeLevel_units (c : Nat) (d : Dir) (s : State) : (takeLevel c d s).units = s.units := by simp [takeLevel]
@[simp] theorem takeLevel_queue (c : Nat) (d : Dir) (s : State) : (takeLevel c d s).queue = s.queue := by simp [takeLevel]
@[simp] theorem takeLevel_profiles (c : Nat) (d : Dir) (s : State) : (takeLevel c d s).profiles = s.profiles := by simp [takeLevel]
@[simp] theorem takeLevel_resp (c : Nat) (d : Dir) (s : State) : (takeLevel c d s).resp = s.resp := by simp [takeLevel]
@[simp] theorem takeLevel_linkOut (c : Nat) (d : Dir) (s : State) : (takeLevel c d s).linkOut = s.linkOut := by simp [takeLevel]
@[simp] theorem takeLevel_settings (c : Nat) (d : Dir) (s : State) : (takeLevel c d s).settings = s.settings := by simp [takeLevel]
@[simp] theorem takeLevel_inForce (c : Nat) (d : Dir) (s : State) : (takeLevel c d s).inForce = s.inForce := by simp [takeLevel]
@[simp] theorem takeLevel_due (c : Nat) (d : Dir) (s : State) : (takeLevel c d s).due = s.due := by simp [takeLevel]

/-! ### takeFloorRise -/

@[simp] theorem takeFloorRise_pending (c : Nat) (s : State) : (takeFloorRise c s).pending = s.pending := by simp [takeFloorRise]
@[simp] theorem takeFloorRise_phase (c : Nat) (s : State) : (takeFloorRise c s).phase = s.phase := by simp [takeFloorRise]
@[simp] theorem takeFloorRise_blockCounter (c : Nat) (s : State) : (takeFloorRise c s).blockCounter = s.blockCounter := by simp [takeFloorRise]
@[simp] theorem takeFloorRise_sync (c : Nat) (s : State) : (takeFloorRise c s).sync = s.sync := by simp [takeFloorRise]
@[simp] theorem takeFloorRise_hwKinds (c : Nat) (s : State) : (takeFloorRise c s).hwKinds = s.hwKinds := by simp [takeFloorRise]
@[simp] theorem takeFloorRise_stamp (c : Nat) (s : State) : (takeFloorRise c s).stamp = s.stamp := by simp [takeFloorRise]
@[simp] theorem takeFloorRise_prescale (c : Nat) (s : State) : (takeFloorRise c s).prescale = s.prescale := by simp [takeFloorRise]
@[simp] theorem takeFloorRise_stampUnit (c : Nat) (s : State) : (takeFloorRise c s).stampUnit = s.stampUnit := by simp [takeFloorRise]
@[simp] theorem takeFloorRise_slots (c : Nat) (s : State) : (takeFloorRise c s).slots = s.slots := by simp [takeFloorRise]
@[simp] theorem takeFloorRise_index (c : Nat) (s : State) : (takeFloorRise c s).index = s.index := by simp [takeFloorRise]
@[simp] theorem takeFloorRise_pool (c : Nat) (s : State) : (takeFloorRise c s).pool = s.pool := by simp [takeFloorRise]
@[simp] theorem takeFloorRise_free (c : Nat) (s : State) : (takeFloorRise c s).free = s.free := by simp [takeFloorRise]
@[simp] theorem takeFloorRise_sched (c : Nat) (s : State) : (takeFloorRise c s).sched = s.sched := by simp [takeFloorRise]
@[simp] theorem takeFloorRise_pointer (c : Nat) (s : State) : (takeFloorRise c s).pointer = s.pointer := by simp [takeFloorRise]
@[simp] theorem takeFloorRise_units (c : Nat) (s : State) : (takeFloorRise c s).units = s.units := by simp [takeFloorRise]
@[simp] theorem takeFloorRise_queue (c : Nat) (s : State) : (takeFloorRise c s).queue = s.queue := by simp [takeFloorRise]
@[simp] theorem takeFloorRise_profiles (c : Nat) (s : State) : (takeFloorRise c s).profiles = s.profiles := by simp [takeFloorRise]
@[simp] theorem takeFloorRise_resp (c : Nat) (s : State) : (takeFloorRise c s).resp = s.resp := by simp [takeFloorRise]
@[simp] theorem takeFloorRise_linkOut (c : Nat) (s : State) : (takeFloorRise c s).linkOut = s.linkOut := by simp [takeFloorRise]
@[simp] theorem takeFloorRise_settings (c : Nat) (s : State) : (takeFloorRise c s).settings = s.settings := by simp [takeFloorRise]
@[simp] theorem takeFloorRise_inForce (c : Nat) (s : State) : (takeFloorRise c s).inForce = s.inForce := by simp [takeFloorRise]
@[simp] theorem takeFloorRise_lineA (c : Nat) (s : State) : (takeFloorRise c s).lineA = s.lineA := by simp [takeFloorRise]
@[simp] theorem takeFloorRise_lineB (c : Nat) (s : State) : (takeFloorRise c s).lineB = s.lineB := by simp [takeFloorRise]
@[simp] theorem takeFloorRise_due (c : Nat) (s : State) : (takeFloorRise c s).due = s.due := by simp [takeFloorRise]

/-! ### takeStamp -/

@[simp] theorem takeStamp_pending (s : State) : (takeStamp s).pending = s.pending := rfl
@[simp] theorem takeStamp_phase (s : State) : (takeStamp s).phase = s.phase := rfl
@[simp] theorem takeStamp_blockCounter (s : State) : (takeStamp s).blockCounter = s.blockCounter := rfl
@[simp] theorem takeStamp_sync (s : State) : (takeStamp s).sync = s.sync := rfl
@[simp] theorem takeStamp_hwKinds (s : State) : (takeStamp s).hwKinds = s.hwKinds := rfl
@[simp] theorem takeStamp_stampUnit (s : State) : (takeStamp s).stampUnit = s.stampUnit := rfl
@[simp] theorem takeStamp_slots (s : State) : (takeStamp s).slots = s.slots := rfl
@[simp] theorem takeStamp_ctxs (s : State) : (takeStamp s).ctxs = s.ctxs := rfl
@[simp] theorem takeStamp_index (s : State) : (takeStamp s).index = s.index := rfl
@[simp] theorem takeStamp_pool (s : State) : (takeStamp s).pool = s.pool := rfl
@[simp] theorem takeStamp_free (s : State) : (takeStamp s).free = s.free := rfl
@[simp] theorem takeStamp_sched (s : State) : (takeStamp s).sched = s.sched := rfl
@[simp] theorem takeStamp_pointer (s : State) : (takeStamp s).pointer = s.pointer := rfl
@[simp] theorem takeStamp_units (s : State) : (takeStamp s).units = s.units := rfl
@[simp] theorem takeStamp_queue (s : State) : (takeStamp s).queue = s.queue := rfl
@[simp] theorem takeStamp_profiles (s : State) : (takeStamp s).profiles = s.profiles := rfl
@[simp] theorem takeStamp_resp (s : State) : (takeStamp s).resp = s.resp := rfl
@[simp] theorem takeStamp_linkOut (s : State) : (takeStamp s).linkOut = s.linkOut := rfl
@[simp] theorem takeStamp_settings (s : State) : (takeStamp s).settings = s.settings := rfl
@[simp] theorem takeStamp_inForce (s : State) : (takeStamp s).inForce = s.inForce := rfl
@[simp] theorem takeStamp_lineA (s : State) : (takeStamp s).lineA = s.lineA := rfl
@[simp] theorem takeStamp_lineB (s : State) : (takeStamp s).lineB = s.lineB := rfl
@[simp] theorem takeStamp_due (s : State) : (takeStamp s).due = s.due := rfl

/-! ### takeWindowEnd -/

@[simp] theorem takeWindowEnd_pending (c : Nat) (s : State) : (takeWindowEnd c s).pending = s.pending := by
  unfold takeWindowEnd windowEndOn windowEndOff windowEndOn.countRelease
  dsimp only
  (repeat' split) <;> simp
@[simp] theorem takeWindowEnd_phase (c : Nat) (s : State) : (takeWindowEnd c s).phase = s.phase := by
  unfold takeWindowEnd windowEndOn windowEndOff windowEndOn.countRelease
  dsimp only
  (repeat' split) <;> simp
@[simp] theorem takeWindowEnd_blockCounter (c : Nat) (s : State) : (takeWindowEnd c s).blockCounter = s.blockCounter := by
  unfold takeWindowEnd windowEndOn windowEndOff windowEndOn.countRelease
  dsimp only
  (repeat' split) <;> simp
@[simp] theorem takeWindowEnd_sync (c : Nat) (s : State) : (takeWindowEnd c s).sync = s.sync := by
  unfold takeWindowEnd windowEndOn windowEndOff windowEndOn.countRelease
  dsimp only
  (repeat' split) <;> simp
@[simp] theorem takeWindowEnd_hwKinds (c : Nat) (s : State) : (takeWindowEnd c s).hwKinds = s.hwKinds := by
  unfold takeWindowEnd windowEndOn windowEndOff windowEndOn.countRelease
  dsimp only
  (repeat' split) <;> simp
@[simp] theorem takeWindowEnd_stamp (c : Nat) (s : State) : (takeWindowEnd c s).stamp = s.stamp := by
  unfold takeWindowEnd windowEndOn windowEndOff windowEndOn.countRelease
  dsimp only
  (repeat' split) <;> simp
@[simp] theorem takeWindowEnd_prescale (c : Nat) (s : State) : (takeWindowEnd c s).prescale = s.prescale := by
  unfold takeWindowEnd windowEndOn windowEndOff windowEndOn.countRelease
  dsimp only
  (repeat' split) <;> simp
@[simp] theorem takeWindowEnd_stampUnit (c : Nat) (s : State) : (takeWindowEnd c s).stampUnit = s.stampUnit := by
  unfold takeWindowEnd windowEndOn windowEndOff windowEndOn.countRelease
  dsimp only
  (repeat' split) <;> simp
@[simp] theorem takeWindowEnd_slots (c : Nat) (s : State) : (takeWindowEnd c s).slots = s.slots := by
  unfold takeWindowEnd windowEndOn windowEndOff windowEndOn.countRelease
  dsimp only
  (repeat' split) <;> simp
@[simp] theorem takeWindowEnd_index (c : Nat) (s : State) : (takeWindowEnd c s).index = s.index := by
  unfold takeWindowEnd windowEndOn windowEndOff windowEndOn.countRelease
  dsimp only
  (repeat' split) <;> simp
@[simp] theorem takeWindowEnd_pool (c : Nat) (s : State) : (takeWindowEnd c s).pool = s.pool := by
  unfold takeWindowEnd windowEndOn windowEndOff windowEndOn.countRelease
  dsimp only
  (repeat' split) <;> simp
@[simp] theorem takeWindowEnd_free (c : Nat) (s : State) : (takeWindowEnd c s).free = s.free := by
  unfold takeWindowEnd windowEndOn windowEndOff windowEndOn.countRelease
  dsimp only
  (repeat' split) <;> simp
@[simp] theorem takeWindowEnd_sched (c : Nat) (s : State) : (takeWindowEnd c s).sched = s.sched := by
  unfold takeWindowEnd windowEndOn windowEndOff windowEndOn.countRelease
  dsimp only
  (repeat' split) <;> simp
@[simp] theorem takeWindowEnd_pointer (c : Nat) (s : State) : (takeWindowEnd c s).pointer = s.pointer := by
  unfold takeWindowEnd windowEndOn windowEndOff windowEndOn.countRelease
  dsimp only
  (repeat' split) <;> simp
@[simp] theorem takeWindowEnd_units (c : Nat) (s : State) : (takeWindowEnd c s).units = s.units := by
  unfold takeWindowEnd windowEndOn windowEndOff windowEndOn.countRelease
  dsimp only
  (repeat' split) <;> simp
@[simp] theorem takeWindowEnd_queue (c : Nat) (s : State) : (takeWindowEnd c s).queue = s.queue := by
  unfold takeWindowEnd windowEndOn windowEndOff windowEndOn.countRelease
  dsimp only
  (repeat' split) <;> simp
@[simp] theorem takeWindowEnd_profiles (c : Nat) (s : State) : (takeWindowEnd c s).profiles = s.profiles := by
  unfold takeWindowEnd windowEndOn windowEndOff windowEndOn.countRelease
  dsimp only
  (repeat' split) <;> simp
@[simp] theorem takeWindowEnd_resp (c : Nat) (s : State) : (takeWindowEnd c s).resp = s.resp := by
  unfold takeWindowEnd windowEndOn windowEndOff windowEndOn.countRelease
  dsimp only
  (repeat' split) <;> simp
@[simp] theorem takeWindowEnd_linkOut (c : Nat) (s : State) : (takeWindowEnd c s).linkOut = s.linkOut := by
  unfold takeWindowEnd windowEndOn windowEndOff windowEndOn.countRelease
  dsimp only
  (repeat' split) <;> simp
@[simp] theorem takeWindowEnd_settings (c : Nat) (s : State) : (takeWindowEnd c s).settings = s.settings := by
  unfold takeWindowEnd windowEndOn windowEndOff windowEndOn.countRelease
  dsimp only
  (repeat' split) <;> simp
@[simp] theorem takeWindowEnd_inForce (c : Nat) (s : State) : (takeWindowEnd c s).inForce = s.inForce := by
  unfold takeWindowEnd windowEndOn windowEndOff windowEndOn.countRelease
  dsimp only
  (repeat' split) <;> simp

/-! ### takeToneEntry -/

@[simp] theorem takeToneEntry_pending (c : Nat) (s : State) : (takeToneEntry c s).pending = s.pending := by
  unfold takeToneEntry
  (repeat' split) <;> simp
@[simp] theorem takeToneEntry_phase (c : Nat) (s : State) : (takeToneEntry c s).phase = s.phase := by
  unfold takeToneEntry
  (repeat' split) <;> simp
@[simp] theorem takeToneEntry_blockCounter (c : Nat) (s : State) : (takeToneEntry c s).blockCounter = s.blockCounter := by
  unfold takeToneEntry
  (repeat' split) <;> simp
@[simp] theorem takeToneEntry_sync (c : Nat) (s : State) : (takeToneEntry c s).sync = s.sync := by
  unfold takeToneEntry
  (repeat' split) <;> simp
@[simp] theorem takeToneEntry_hwKinds (c : Nat) (s : State) : (takeToneEntry c s).hwKinds = s.hwKinds := by
  unfold takeToneEntry
  (repeat' split) <;> simp
@[simp] theorem takeToneEntry_stamp (c : Nat) (s : State) : (takeToneEntry c s).stamp = s.stamp := by
  unfold takeToneEntry
  (repeat' split) <;> simp
@[simp] theorem takeToneEntry_prescale (c : Nat) (s : State) : (takeToneEntry c s).prescale = s.prescale := by
  unfold takeToneEntry
  (repeat' split) <;> simp
@[simp] theorem takeToneEntry_stampUnit (c : Nat) (s : State) : (takeToneEntry c s).stampUnit = s.stampUnit := by
  unfold takeToneEntry
  (repeat' split) <;> simp
@[simp] theorem takeToneEntry_slots (c : Nat) (s : State) : (takeToneEntry c s).slots = s.slots := by
  unfold takeToneEntry
  (repeat' split) <;> simp
@[simp] theorem takeToneEntry_index (c : Nat) (s : State) : (takeToneEntry c s).index = s.index := by
  unfold takeToneEntry
  (repeat' split) <;> simp
@[simp] theorem takeToneEntry_pool (c : Nat) (s : State) : (takeToneEntry c s).pool = s.pool := by
  unfold takeToneEntry
  (repeat' split) <;> simp
@[simp] theorem takeToneEntry_free (c : Nat) (s : State) : (takeToneEntry c s).free = s.free := by
  unfold takeToneEntry
  (repeat' split) <;> simp
@[simp] theorem takeToneEntry_sched (c : Nat) (s : State) : (takeToneEntry c s).sched = s.sched := by
  unfold takeToneEntry
  (repeat' split) <;> simp
@[simp] theorem takeToneEntry_pointer (c : Nat) (s : State) : (takeToneEntry c s).pointer = s.pointer := by
  unfold takeToneEntry
  (repeat' split) <;> simp
@[simp] theorem takeToneEntry_units (c : Nat) (s : State) : (takeToneEntry c s).units = s.units := by
  unfold takeToneEntry
  (repeat' split) <;> simp
@[simp] theorem takeToneEntry_queue (c : Nat) (s : State) : (takeToneEntry c s).queue = s.queue := by
  unfold takeToneEntry
  (repeat' split) <;> simp
@[simp] theorem takeToneEntry_profiles (c : Nat) (s : State) : (takeToneEntry c s).profiles = s.profiles := by
  unfold takeToneEntry
  (repeat' split) <;> simp
@[simp] theorem takeToneEntry_resp (c : Nat) (s : State) : (takeToneEntry c s).resp = s.resp := by
  unfold takeToneEntry
  (repeat' split) <;> simp
@[simp] theorem takeToneEntry_linkOut (c : Nat) (s : State) : (takeToneEntry c s).linkOut = s.linkOut := by
  unfold takeToneEntry
  (repeat' split) <;> simp
@[simp] theorem takeToneEntry_settings (c : Nat) (s : State) : (takeToneEntry c s).settings = s.settings := by
  unfold takeToneEntry
  (repeat' split) <;> simp
@[simp] theorem takeToneEntry_inForce (c : Nat) (s : State) : (takeToneEntry c s).inForce = s.inForce := by
  unfold takeToneEntry
  (repeat' split) <;> simp
@[simp] theorem takeToneEntry_due (c : Nat) (s : State) : (takeToneEntry c s).due = s.due := by
  unfold takeToneEntry
  (repeat' split) <;> simp

/-! ### takeRelease -/

@[simp] theorem takeRelease_pending (c : Nat) (s : State) : (takeRelease c s).pending = s.pending := by
  unfold takeRelease
  (repeat' split) <;> simp
@[simp] theorem takeRelease_phase (c : Nat) (s : State) : (takeRelease c s).phase = s.phase := by
  unfold takeRelease
  (repeat' split) <;> simp
@[simp] theorem takeRelease_blockCounter (c : Nat) (s : State) : (takeRelease c s).blockCounter = s.blockCounter := by
  unfold takeRelease
  (repeat' split) <;> simp
@[simp] theorem takeRelease_sync (c : Nat) (s : State) : (takeRelease c s).sync = s.sync := by
  unfold takeRelease
  (repeat' split) <;> simp
@[simp] theorem takeRelease_hwKinds (c : Nat) (s : State) : (takeRelease c s).hwKinds = s.hwKinds := by
  unfold takeRelease
  (repeat' split) <;> simp
@[simp] theorem takeRelease_stamp (c : Nat) (s : State) : (takeRelease c s).stamp = s.stamp := by
  unfold takeRelease
  (repeat' split) <;> simp
@[simp] theorem takeRelease_prescale (c : Nat) (s : State) : (takeRelease c s).prescale = s.prescale := by
  unfold takeRelease
  (repeat' split) <;> simp
@[simp] theorem takeRelease_stampUnit (c : Nat) (s : State) : (takeRelease c s).stampUnit = s.stampUnit := by
  unfold takeRelease
  (repeat' split) <;> simp
@[simp] theorem takeRelease_slots (c : Nat) (s : State) : (takeRelease c s).slots = s.slots := by
  unfold takeRelease
  (repeat' split) <;> simp
@[simp] theorem takeRelease_index (c : Nat) (s : State) : (takeRelease c s).index = s.index := by
  unfold takeRelease
  (repeat' split) <;> simp
@[simp] theorem takeRelease_pool (c : Nat) (s : State) : (takeRelease c s).pool = s.pool := by
  unfold takeRelease
  (repeat' split) <;> simp
@[simp] theorem takeRelease_free (c : Nat) (s : State) : (takeRelease c s).free = s.free := by
  unfold takeRelease
  (repeat' split) <;> simp
@[simp] theorem takeRelease_sched (c : Nat) (s : State) : (takeRelease c s).sched = s.sched := by
  unfold takeRelease
  (repeat' split) <;> simp
@[simp] theorem takeRelease_pointer (c : Nat) (s : State) : (takeRelease c s).pointer = s.pointer := by
  unfold takeRelease
  (repeat' split) <;> simp
@[simp] theorem takeRelease_units (c : Nat) (s : State) : (takeRelease c s).units = s.units := by
  unfold takeRelease
  (repeat' split) <;> simp
@[simp] theorem takeRelease_queue (c : Nat) (s : State) : (takeRelease c s).queue = s.queue := by
  unfold takeRelease
  (repeat' split) <;> simp
@[simp] theorem takeRelease_profiles (c : Nat) (s : State) : (takeRelease c s).profiles = s.profiles := by
  unfold takeRelease
  (repeat' split) <;> simp
@[simp] theorem takeRelease_resp (c : Nat) (s : State) : (takeRelease c s).resp = s.resp := by
  unfold takeRelease
  (repeat' split) <;> simp
@[simp] theorem takeRelease_linkOut (c : Nat) (s : State) : (takeRelease c s).linkOut = s.linkOut := by
  unfold takeRelease
  (repeat' split) <;> simp
@[simp] theorem takeRelease_settings (c : Nat) (s : State) : (takeRelease c s).settings = s.settings := by
  unfold takeRelease
  (repeat' split) <;> simp
@[simp] theorem takeRelease_inForce (c : Nat) (s : State) : (takeRelease c s).inForce = s.inForce := by
  unfold takeRelease
  (repeat' split) <;> simp
@[simp] theorem takeRelease_due (c : Nat) (s : State) : (takeRelease c s).due = s.due := by
  unfold takeRelease
  (repeat' split) <;> simp

/-! ### takeEvent -/

@[simp] theorem takeEvent_pending (e : DueEvent) (s : State) : (takeEvent e s).pending = s.pending := by cases e <;> simp [takeEvent]
@[simp] theorem takeEvent_phase (e : DueEvent) (s : State) : (takeEvent e s).phase = s.phase := by cases e <;> simp [takeEvent]
@[simp] theorem takeEvent_blockCounter (e : DueEvent) (s : State) : (takeEvent e s).blockCounter = s.blockCounter := by cases e <;> simp [takeEvent]
@[simp] theorem takeEvent_sync (e : DueEvent) (s : State) : (takeEvent e s).sync = s.sync := by cases e <;> simp [takeEvent]
@[simp] theorem takeEvent_hwKinds (e : DueEvent) (s : State) : (takeEvent e s).hwKinds = s.hwKinds := by cases e <;> simp [takeEvent]
@[simp] theorem takeEvent_stampUnit (e : DueEvent) (s : State) : (takeEvent e s).stampUnit = s.stampUnit := by cases e <;> simp [takeEvent]
@[simp] theorem takeEvent_slots (e : DueEvent) (s : State) : (takeEvent e s).slots = s.slots := by cases e <;> simp [takeEvent]
@[simp] theorem takeEvent_index (e : DueEvent) (s : State) : (takeEvent e s).index = s.index := by cases e <;> simp [takeEvent]
@[simp] theorem takeEvent_free (e : DueEvent) (s : State) : (takeEvent e s).free = s.free := by cases e <;> simp [takeEvent]
@[simp] theorem takeEvent_sched (e : DueEvent) (s : State) : (takeEvent e s).sched = s.sched := by cases e <;> simp [takeEvent]
@[simp] theorem takeEvent_pointer (e : DueEvent) (s : State) : (takeEvent e s).pointer = s.pointer := by cases e <;> simp [takeEvent]
@[simp] theorem takeEvent_profiles (e : DueEvent) (s : State) : (takeEvent e s).profiles = s.profiles := by cases e <;> simp [takeEvent]
@[simp] theorem takeEvent_resp (e : DueEvent) (s : State) : (takeEvent e s).resp = s.resp := by cases e <;> simp [takeEvent]
@[simp] theorem takeEvent_linkOut (e : DueEvent) (s : State) : (takeEvent e s).linkOut = s.linkOut := by cases e <;> simp [takeEvent]
@[simp] theorem takeEvent_settings (e : DueEvent) (s : State) : (takeEvent e s).settings = s.settings := by cases e <;> simp [takeEvent]
@[simp] theorem takeEvent_inForce (e : DueEvent) (s : State) : (takeEvent e s).inForce = s.inForce := by cases e <;> simp [takeEvent]

/-! ### Folds, settling -/

/-- A fold of steps that keep a value keeps it. -/
theorem foldl_keeps {α β γ : Type} (g : β → γ) (f : β → α → β) (h : ∀ b a, g (f b a) = g b) (l : List α) (b : β) :
    g (l.foldl f b) = g b := by
  induction l generalizing b with
  | nil => rfl
  | cons a l ih => simp [ih, h]

@[simp] theorem settlePass_pending (s : State) : (settlePass s).pending = s.pending := by
  unfold settlePass
  exact foldl_keeps (fun t : State => t.pending) _ (by simp) _ _
@[simp] theorem settle_pending (s : State) : (settle s).pending = s.pending := by
  simp [settle]
@[simp] theorem settlePass_phase (s : State) : (settlePass s).phase = s.phase := by
  unfold settlePass
  exact foldl_keeps (fun t : State => t.phase) _ (by simp) _ _
@[simp] theorem settle_phase (s : State) : (settle s).phase = s.phase := by
  simp [settle]
@[simp] theorem settlePass_blockCounter (s : State) : (settlePass s).blockCounter = s.blockCounter := by
  unfold settlePass
  exact foldl_keeps (fun t : State => t.blockCounter) _ (by simp) _ _
@[simp] theorem settle_blockCounter (s : State) : (settle s).blockCounter = s.blockCounter := by
  simp [settle]
@[simp] theorem settlePass_sync (s : State) : (settlePass s).sync = s.sync := by
  unfold settlePass
  exact foldl_keeps (fun t : State => t.sync) _ (by simp) _ _
@[simp] theorem settle_sync (s : State) : (settle s).sync = s.sync := by
  simp [settle]
@[simp] theorem settlePass_hwKinds (s : State) : (settlePass s).hwKinds = s.hwKinds := by
  unfold settlePass
  exact foldl_keeps (fun t : State => t.hwKinds) _ (by simp) _ _
@[simp] theorem settle_hwKinds (s : State) : (settle s).hwKinds = s.hwKinds := by
  simp [settle]
@[simp] theorem settlePass_stampUnit (s : State) : (settlePass s).stampUnit = s.stampUnit := by
  unfold settlePass
  exact foldl_keeps (fun t : State => t.stampUnit) _ (by simp) _ _
@[simp] theorem settle_stampUnit (s : State) : (settle s).stampUnit = s.stampUnit := by
  simp [settle]
@[simp] theorem settlePass_slots (s : State) : (settlePass s).slots = s.slots := by
  unfold settlePass
  exact foldl_keeps (fun t : State => t.slots) _ (by simp) _ _
@[simp] theorem settle_slots (s : State) : (settle s).slots = s.slots := by
  simp [settle]
@[simp] theorem settlePass_index (s : State) : (settlePass s).index = s.index := by
  unfold settlePass
  exact foldl_keeps (fun t : State => t.index) _ (by simp) _ _
@[simp] theorem settle_index (s : State) : (settle s).index = s.index := by
  simp [settle]
@[simp] theorem settlePass_free (s : State) : (settlePass s).free = s.free := by
  unfold settlePass
  exact foldl_keeps (fun t : State => t.free) _ (by simp) _ _
@[simp] theorem settle_free (s : State) : (settle s).free = s.free := by
  simp [settle]
@[simp] theorem settlePass_sched (s : State) : (settlePass s).sched = s.sched := by
  unfold settlePass
  exact foldl_keeps (fun t : State => t.sched) _ (by simp) _ _
@[simp] theorem settle_sched (s : State) : (settle s).sched = s.sched := by
  simp [settle]
@[simp] theorem settlePass_pointer (s : State) : (settlePass s).pointer = s.pointer := by
  unfold settlePass
  exact foldl_keeps (fun t : State => t.pointer) _ (by simp) _ _
@[simp] theorem settle_pointer (s : State) : (settle s).pointer = s.pointer := by
  simp [settle]
@[simp] theorem settlePass_profiles (s : State) : (settlePass s).profiles = s.profiles := by
  unfold settlePass
  exact foldl_keeps (fun t : State => t.profiles) _ (by simp) _ _
@[simp] theorem settle_profiles (s : State) : (settle s).profiles = s.profiles := by
  simp [settle]
@[simp] theorem settlePass_resp (s : State) : (settlePass s).resp = s.resp := by
  unfold settlePass
  exact foldl_keeps (fun t : State => t.resp) _ (by simp) _ _
@[simp] theorem settle_resp (s : State) : (settle s).resp = s.resp := by
  simp [settle]
@[simp] theorem settlePass_linkOut (s : State) : (settlePass s).linkOut = s.linkOut := by
  unfold settlePass
  exact foldl_keeps (fun t : State => t.linkOut) _ (by simp) _ _
@[simp] theorem settle_linkOut (s : State) : (settle s).linkOut = s.linkOut := by
  simp [settle]
@[simp] theorem settlePass_settings (s : State) : (settlePass s).settings = s.settings := by
  unfold settlePass
  exact foldl_keeps (fun t : State => t.settings) _ (by simp) _ _
@[simp] theorem settle_settings (s : State) : (settle s).settings = s.settings := by
  simp [settle]
@[simp] theorem settlePass_inForce (s : State) : (settlePass s).inForce = s.inForce := by
  unfold settlePass
  exact foldl_keeps (fun t : State => t.inForce) _ (by simp) _ _
@[simp] theorem settle_inForce (s : State) : (settle s).inForce = s.inForce := by
  simp [settle]

end Sys2Proof.Machine
end

