-- ==== Sys2Proof/Laws/Ops.lean ====
section
/-! SUPPORT. The laws of the shared operations: tables, records, segment memory, histories, and for each operation on State one lemma
that says what it can do. -/

namespace Sys2Proof.Machine

/-! ### Tables -/

section
variable {α β : Type}

@[simp] theorem tget_nil (k : Nat) : tget k ([] : List (Nat × α)) = none := rfl

@[simp] theorem tget_tset_same (k : Nat) (v : α) (m : List (Nat × α)) : tget k (tset k v m) = some v := by
  induction m with
  | nil => simp [tset, tget]
  | cons e t ih =>
    obtain ⟨j, w⟩ := e
    simp only [tset]
    split
    · simp [tget]
    · split
      · simp [tget]
      · next h => simp [tget, h, ih]

theorem tget_tset_other {j k : Nat} (h : j ≠ k) (v : α) (m : List (Nat × α)) : tget j (tset k v m) = tget j m := by
  induction m with
  | nil => simp [tset, tget, Ne.symm h]
  | cons e t ih =>
    obtain ⟨i, w⟩ := e
    simp only [tset]
    split
    · simp [tget, Ne.symm h]
    · split
      · next h' => subst h'; simp [tget, Ne.symm h]
      · simp [tget, ih]

@[simp] theorem tget_tdel_same (k : Nat) (m : List (Nat × α)) : tget k (tdel k m) = none := by
  induction m with
  | nil => rfl
  | cons e t ih =>
    obtain ⟨j, w⟩ := e
    by_cases h : j = k
    · simpa [tdel, h] using ih
    · simpa [tdel, h, tget] using ih

theorem tget_tdel_other {j k : Nat} (h : j ≠ k) (m : List (Nat × α)) : tget j (tdel k m) = tget j m := by
  induction m with
  | nil => rfl
  | cons e t ih =>
    obtain ⟨i, w⟩ := e
    by_cases h' : i = k
    · subst h'; simpa [tdel, tget, Ne.symm h] using ih
    · simp only [tdel, ne_eq, List.filter_cons, h', not_false_eq_true, decide_true, if_true, tget]
      split
      · rfl
      · simpa [tdel] using ih

theorem tget_map (f : α → β) (k : Nat) (m : List (Nat × α)) : tget k (m.map fun e => (e.1, f e.2)) = (tget k m).map f := by
  induction m with
  | nil => rfl
  | cons e t ih => obtain ⟨j, w⟩ := e; simp only [List.map_cons, tget]; split <;> simp_all

theorem mem_of_tget {k : Nat} {v : α} {m : List (Nat × α)} (h : tget k m = some v) : (k, v) ∈ m := by
  induction m with
  | nil => simp at h
  | cons e t ih =>
    obtain ⟨j, w⟩ := e
    simp only [tget] at h
    split at h
    · next hj => simp at h; simp [← h, hj]
    · exact List.mem_cons_of_mem _ (ih h)

theorem mem_tset {k : Nat} {v : α} {e : Nat × α} {m : List (Nat × α)} (h : e ∈ tset k v m) : e = (k, v) ∨ e ∈ m := by
  induction m with
  | nil => simpa [tset] using h
  | cons d t ih =>
    obtain ⟨j, w⟩ := d
    simp only [tset] at h
    split at h
    · simpa using h
    · split at h
      · rcases List.mem_cons.1 h with h | h
        · exact .inl h
        · exact .inr (List.mem_cons_of_mem _ h)
      · rcases List.mem_cons.1 h with h | h
        · exact .inr (by simp [h])
        · rcases ih h with h | h
          · exact .inl h
          · exact .inr (List.mem_cons_of_mem _ h)

theorem mem_tdel {k : Nat} {e : Nat × α} {m : List (Nat × α)} : e ∈ tdel k m ↔ e ∈ m ∧ e.1 ≠ k := by
  simp [tdel, List.mem_filter]

theorem all_tset {p : Nat × α → Bool} {k : Nat} {v : α} {m : List (Nat × α)} (hv : p (k, v) = true) (hm : m.all p = true) :
    (tset k v m).all p = true := by
  rw [List.all_eq_true] at hm ⊢
  intro e he
  rcases mem_tset he with rfl | h
  · exact hv
  · exact hm _ h

theorem all_tdel {p : Nat × α → Bool} {k : Nat} {m : List (Nat × α)} (hm : m.all p = true) : (tdel k m).all p = true := by
  rw [List.all_eq_true] at hm ⊢
  exact fun e he => hm e (mem_tdel.1 he).1

/-- A rising table: the head's number is below every other. -/
theorem rising_cons {e : Nat × α} {m : List (Nat × α)} : rising (e :: m) = true ↔ (∀ d ∈ m, e.1 < d.1) ∧ rising m = true := by
  induction m generalizing e with
  | nil => simp [rising]
  | cons d t ih =>
    simp only [rising, Bool.and_eq_true, decide_eq_true_eq]
    constructor
    · rintro ⟨h, hr⟩
      refine ⟨fun x hx => ?_, hr⟩
      rcases List.mem_cons.1 hx with rfl | hx
      · exact h
      · exact Nat.lt_trans h ((ih.1 hr).1 x hx)
    · rintro ⟨h, hr⟩
      exact ⟨h d (by simp), hr⟩

@[simp] theorem rising_nil : rising ([] : List (Nat × α)) = true := rfl

theorem rising_tset {k : Nat} {v : α} {m : List (Nat × α)} (h : rising m = true) : rising (tset k v m) = true := by
  induction m with
  | nil => rfl
  | cons d t ih =>
    obtain ⟨j, w⟩ := d
    have hd := rising_cons.1 h
    simp only [tset]
    split
    · next hk =>
      refine rising_cons.2 ⟨fun e he => ?_, h⟩
      rcases List.mem_cons.1 he with rfl | he
      · exact hk
      · exact Nat.lt_trans hk (hd.1 e he)
    · split
      · next _ hk => subst hk; exact rising_cons.2 ⟨hd.1, hd.2⟩
      · next hk hj =>
        refine rising_cons.2 ⟨fun e he => ?_, ih hd.2⟩
        rcases mem_tset he with rfl | he
        · exact Nat.lt_of_le_of_ne (Nat.le_of_not_lt hk) hj
        · exact hd.1 e he

theorem rising_tdel {k : Nat} {m : List (Nat × α)} (h : rising m = true) : rising (tdel k m) = true := by
  induction m with
  | nil => rfl
  | cons d t ih =>
    have hd := rising_cons.1 h
    by_cases hk : d.1 = k
    · simpa [tdel, hk] using ih hd.2
    · have : tdel k (d :: t) = d :: tdel k t := by simp [tdel, hk]
      rw [this]
      exact rising_cons.2 ⟨fun e he => hd.1 e (mem_tdel.1 he).1, ih hd.2⟩

theorem rising_map (f : Nat → α → β) {m : List (Nat × α)} (h : rising m = true) :
    rising (m.map fun e => (e.1, f e.1 e.2)) = true := by
  induction m with
  | nil => rfl
  | cons d t ih =>
    have hd := rising_cons.1 h
    refine rising_cons.2 ⟨fun e he => ?_, ih hd.2⟩
    obtain ⟨x, hx, rfl⟩ := List.mem_map.1 he
    exact hd.1 x hx

/-- In a rising table every entry is the one that its number gives. -/
theorem tget_of_mem {k : Nat} {v : α} {m : List (Nat × α)} (hr : rising m = true) (h : (k, v) ∈ m) : tget k m = some v := by
  induction m with
  | nil => simp at h
  | cons d t ih =>
    obtain ⟨j, w⟩ := d
    have hd := rising_cons.1 hr
    rcases List.mem_cons.1 h with h | h
    · cases h; simp [tget]
    · have : j ≠ k := Nat.ne_of_lt (hd.1 _ h)
      simp [tget, this, ih hd.2 h]

end

/-! ### Records -/

@[simp] theorem rec?_setRec_same (c : Nat) (r : Record) (s : State) : (s.setRec c r).rec? c = some r := by simp [State.rec?]

theorem rec?_setRec_other {c d : Nat} (h : d ≠ c) (r : Record) (s : State) : (s.setRec c r).rec? d = s.rec? d := by
  simp [State.rec?, tget_tset_other h]

/-- What a change of one record does: nothing to a VACANT context, `f` to a bound one. -/
theorem modRec_cases (c : Nat) (f : Record → Record) (s : State) :
    (s.rec? c = none ∧ s.modRec c f = s) ∨ ∃ r, s.rec? c = some r ∧ s.modRec c f = s.setRec c (f r) := by
  unfold State.modRec
  cases h : s.rec? c with
  | none => exact .inl ⟨rfl, rfl⟩
  | some r => exact .inr ⟨r, rfl, rfl⟩

theorem rec?_modRec_same (c : Nat) (f : Record → Record) (s : State) : (s.modRec c f).rec? c = (s.rec? c).map f := by
  rcases modRec_cases c f s with ⟨h, h'⟩ | ⟨r, h, h'⟩
  · simp [h', h]
  · simp [h', h]

theorem rec?_modRec_other {c d : Nat} (h : d ≠ c) (f : Record → Record) (s : State) : (s.modRec c f).rec? d = s.rec? d := by
  rcases modRec_cases c f s with ⟨_, h'⟩ | ⟨r, _, h'⟩
  · rw [h']
  · rw [h', rec?_setRec_other h]

theorem rec?_congr {s t : State} (h : t.ctxs = s.ctxs) (c : Nat) : t.rec? c = s.rec? c := by simp [State.rec?, h]
theorem profile_congr {s t : State} (h : t.profiles = s.profiles) (p : Nat) : t.profile p = s.profile p := by
  simp [State.profile, h]
theorem slotAt_congr {s t : State} (h : t.slots = s.slots) (p : Nat) : t.slotAt p = s.slotAt p := by simp [State.slotAt, h]
theorem enabled_congr {s t : State} (h : t.sync = s.sync) (k : Nat) : t.enabled k = s.enabled k := by simp [State.enabled, h]
theorem locked_congr {s t : State} (h : t.sync = s.sync) (k : Nat) : t.locked k = s.locked k := by simp [State.locked, h]

@[simp] theorem profile_setProfile_same (p : Nat) (f : Profile) (s : State) : (s.setProfile p f).profile p = f := by
  simp [State.profile]
theorem profile_setProfile_other {p q : Nat} (h : q ≠ p) (f : Profile) (s : State) : (s.setProfile p f).profile q = s.profile q := by
  simp [State.profile, tget_tset_other h]

/-! ### Segment memory -/

@[simp] theorem zeroSeg_length : zeroSeg.length = segTaps := by simp [zeroSeg]

@[simp] theorem segSlice_length (cs : List Coeff) (i : Nat) : (segSlice cs i).length = segTaps := by simp [segSlice]

theorem poolWf_iff {pool : List (Nat × List Coeff)} :
    poolWf pool = true ↔ rising pool = true ∧ ∀ e ∈ pool, e.2.length = segTaps ∧ e.2 ≠ zeroSeg := by
  simp [poolWf]

/-- A segment reads as what was last written to it. -/
@[simp] theorem segRead_segWrite_same (pool : List (Nat × List Coeff)) (g : Nat) (v : List Coeff) :
    segRead (segWrite pool g v) g = v := by
  unfold segRead segWrite
  split
  · next h => simp [h]
  · simp

/-- A write leaves every other segment alone. -/
theorem segRead_segWrite_other (pool : List (Nat × List Coeff)) {g k : Nat} (h : k ≠ g) (v : List Coeff) :
    segRead (segWrite pool g v) k = segRead pool k := by
  unfold segRead segWrite
  split
  · rw [tget_tdel_other h]
  · rw [tget_tset_other h]

/-- A write keeps the canonical form. -/
theorem poolWf_segWrite {pool : List (Nat × List Coeff)} (h : poolWf pool = true) (g : Nat) {v : List Coeff}
    (hv : v.length = segTaps) : poolWf (segWrite pool g v) = true := by
  rw [poolWf_iff] at h ⊢
  unfold segWrite
  split
  · exact ⟨rising_tdel h.1, fun e he => h.2 e (mem_tdel.1 he).1⟩
  · next hz =>
    refine ⟨rising_tset h.1, fun e he => ?_⟩
    rcases mem_tset he with rfl | he
    · exact ⟨hv, hz⟩
    · exact h.2 e he

/-- A run of writes keeps the canonical form. -/
theorem poolWf_writeRun {pool : List (Nat × List Coeff)} (h : poolWf pool = true) (gs : List Nat) (cs : List Coeff) :
    poolWf (writeRun pool gs cs) = true := by
  induction gs generalizing pool cs with
  | nil => exact h
  | cons g gs ih => exact ih (poolWf_segWrite h g (segSlice_length _ _)) _

/-- A run of writes leaves every other segment alone. -/
theorem segRead_writeRun_other (pool : List (Nat × List Coeff)) {gs : List Nat} {k : Nat} (h : k ∉ gs) (cs : List Coeff) :
    segRead (writeRun pool gs cs) k = segRead pool k := by
  induction gs generalizing pool cs with
  | nil => rfl
  | cons g gs ih =>
    simp only [List.mem_cons, not_or] at h
    rw [writeRun, ih _ h.2, segRead_segWrite_other _ h.1]

/-- Zeroing windows keeps the canonical form. -/
theorem poolWf_zeroWindows {pool : List (Nat × List Coeff)} (h : poolWf pool = true) (w : Windows) :
    poolWf (zeroWindows pool w) = true := by
  unfold zeroWindows
  generalize w.segs = gs
  induction gs generalizing pool with
  | nil => exact h
  | cons g gs ih => exact ih (poolWf_segWrite h g zeroSeg_length)

theorem zeroWindows_foldl (gs : List Nat) (pool : List (Nat × List Coeff)) (k : Nat) :
    segRead (gs.foldl (fun p g => segWrite p g zeroSeg) pool) k = if k ∈ gs then zeroSeg else segRead pool k := by
  induction gs generalizing pool with
  | nil => simp
  | cons g gs ih =>
    simp only [List.foldl_cons, ih, List.mem_cons]
    by_cases hk : k ∈ gs
    · simp [hk]
    · by_cases hg : k = g
      · subst hg; simp [hk]
      · simp [hk, hg, segRead_segWrite_other _ hg]

/-- Zeroing windows zeroes their segments and no other. -/
theorem segRead_zeroWindows (pool : List (Nat × List Coeff)) (w : Windows) (k : Nat) :
    segRead (zeroWindows pool w) k = if k ∈ w.segs then zeroSeg else segRead pool k := zeroWindows_foldl _ _ _

/-- The coefficient update keeps the canonical form. -/
theorem poolWf_adaptRecord (p : Profile) (h : List Sample) (r : Record) {pool : List (Nat × List Coeff)}
    (hp : poolWf pool = true) : poolWf (adaptRecord p h r pool) = true := by
  unfold adaptRecord
  generalize r.wins.list = ws
  suffices H : ∀ q, poolWf q = true → poolWf (ws.foldl (fun q w =>
      writeRun q w.segs (List.zipWith (stepCoeff (stepSize p r) (normaliser p r)) (windowCoeffs pool w)
        (correlations r.blk.resid.reverse (h.drop (segTaps * w.base)) (windowCoeffs pool w).length))) q) = true from H pool hp
  induction ws with
  | nil => exact fun q hq => hq
  | cons w ws ih => exact fun q hq => ih _ (poolWf_writeRun hq _ _)

/-! ### Slots -/

theorem mapFrom_length {α β : Type} (f : Nat → α → β) (i : Nat) (l : List α) : (mapFrom f i l).length = l.length := by
  induction l generalizing i with
  | nil => rfl
  | cons a l ih => simp [mapFrom, ih]

theorem mapFrom_getElem? {α β : Type} (f : Nat → α → β) (i : Nat) (l : List α) (n : Nat) :
    (mapFrom f i l)[n]? = l[n]?.map (f (i + n)) := by
  induction l generalizing i n with
  | nil => simp [mapFrom]
  | cons a l ih =>
    cases n with
    | zero => simp [mapFrom]
    | succ n => simp [mapFrom, ih, Nat.add_assoc, Nat.add_comm 1]

/-- What lies past a history's end reads as 0, so that trimming changes no read. -/
theorem getD_trimZeros (l : List Sample) (i : Nat) : (trimZeros l).getD i 0 = l.getD i 0 := by
  induction l generalizing i with
  | nil => rfl
  | cons x t ih =>
    have hx : trimZeros (x :: t) = if x = 0 && (trimZeros t).isEmpty then [] else x :: trimZeros t := rfl
    rw [hx]
    split
    · next h =>
      simp only [Bool.and_eq_true, decide_eq_true_eq, List.isEmpty_iff] at h
      cases i with
      | zero => simp [h.1]
      | succ i =>
        have := ih i
        rw [h.2] at this
        simpa using this
    · cases i with
      | zero => rfl
      | succ i => simpa using ih i

theorem trimZeros_length_le (l : List Sample) : (trimZeros l).length ≤ l.length := by
  induction l with
  | nil => simp [trimZeros]
  | cons x t ih =>
    have hx : trimZeros (x :: t) = if x = 0 && (trimZeros t).isEmpty then [] else x :: trimZeros t := rfl
    rw [hx]
    split
    · simp
    · simpa using ih

theorem pushHist_length_le (x : Sample) (h : List Sample) : (pushHist x h).length ≤ historyDepth :=
  Nat.le_trans (trimZeros_length_le _) (by simp)

/-! ### What each operation on State can do -/

/-- Raising a notice: nothing for a VACANT context or a kind already pending; otherwise the kind enters the set and pulses are owed. -/
theorem raise_cases (k : Kind) (c : Nat) (s : State) :
    (s.rec? c = none ∧ raise k c s = s) ∨
    ∃ r, s.rec? c = some r ∧
      ((hasKind r.notes.kinds k = true ∧ raise k c s = s) ∨
       (hasKind r.notes.kinds k = false ∧ raise k c s =
         (s.setRec c { r with notes := { r.notes with kinds := addKind r.notes.kinds k } }).owe (routeOf r.notes.routing k))) := by
  unfold raise
  cases h : s.rec? c with
  | none => exact .inl ⟨rfl, rfl⟩
  | some r =>
    refine .inr ⟨r, rfl, ?_⟩
    cases hk : hasKind r.notes.kinds k with
    | true => exact .inl ⟨rfl, by simp [hk]⟩
    | false => exact .inr ⟨rfl, by simp [hk]⟩

/-- Raising a notice changes a record's notices and nothing else of it. -/
theorem rec?_raise (k : Kind) (c d : Nat) (s : State) :
    (raise k c s).rec? d = if d = c then (s.rec? c).map fun r =>
      { r with notes := { r.notes with kinds := if hasKind r.notes.kinds k then r.notes.kinds else addKind r.notes.kinds k } }
    else s.rec? d := by
  have hown : ∀ (t : State) (r : Route), (t.owe r).rec? d = t.rec? d := fun t r => rec?_congr (by simp) d
  rcases raise_cases k c s with ⟨h, h'⟩ | ⟨r, h, ⟨hk, h'⟩ | ⟨hk, h'⟩⟩
  · rw [h']; split
    · next hd => subst hd; simp [h]
    · rfl
  · rw [h']; split
    · next hd => subst hd; simp [h, hk]
    · rfl
  · rw [h', hown]; split
    · next hd => subst hd; simp [h, hk]
    · next hd => rw [rec?_setRec_other hd]

/-- Writing a detail record changes a record's notices and nothing else of it. -/
theorem rec?_writeDetail (c d : Nat) (x : Detail) (s : State) :
    (writeDetail c x s).rec? d = if d = c then (s.rec? c).map fun r => { r with notes := detailInto s.settings.policy x r.notes }
    else s.rec? d := by
  unfold writeDetail
  split
  · next h => subst h; rw [rec?_modRec_same]
  · next h => rw [rec?_modRec_other h]

theorem rec?_setLink (l : SearchLink) (c d : Nat) (s : State) :
    (setLink l c s).rec? d = if d = c then (s.rec? c).map fun r => { r with link := l } else s.rec? d := by
  unfold setLink
  split
  · next h => subst h; rw [rec?_modRec_same]
  · next h => rw [rec?_modRec_other h]

/-- A start of a search: the record's link, the queue and the unit. -/
theorem startSearch_cases (u c : Nat) (b : Bool) (s : State) :
    (s.rec? c = none ∧ startSearch u c b s = s) ∨
    ∃ r, s.rec? c = some r ∧ startSearch u c b s =
      { s.setRec c { r with link := .searching u } with
        queue := s.queue.filter fun j => j ≠ c
        units := tset u { ctx := c, span := r.id.span, shadow := List.replicate nTaps 0, qual := 0, blocks := 0, begun := b
                          resid := [] } s.units } := by
  unfold startSearch
  cases h : s.rec? c with
  | none => exact .inl ⟨rfl, rfl⟩
  | some r => exact .inr ⟨r, rfl, rfl⟩

/-- A freed unit becomes IDLE on an empty queue, and otherwise starts on the head. -/
theorem freeUnit_cases (u : Nat) (b : Bool) (s : State) :
    (s.queue = [] ∧ freeUnit u b s = { s with units := tdel u s.units }) ∨
    ∃ c q, s.queue = c :: q ∧ freeUnit u b s = startSearch u c b { s with units := tdel u s.units } := by
  unfold freeUnit
  cases h : s.queue with
  | nil => exact .inl ⟨rfl, by simp⟩
  | cons c q => exact .inr ⟨c, q, rfl, by simp⟩

/-- Ending a search, by the record's link. -/
theorem endSearch_cases (c : Nat) (b : Bool) (s : State) :
    (s.rec? c = none ∧ endSearch c b s = s) ∨
    ∃ r, s.rec? c = some r ∧
      ((r.link = .none ∧ endSearch c b s = s) ∨
       (r.link = .queued ∧ endSearch c b s = { setLink .none c s with queue := s.queue.filter fun j => j ≠ c }) ∨
       ∃ u, r.link = .searching u ∧ endSearch c b s = freeUnit u b (setLink .none c s)) := by
  unfold endSearch
  cases h : s.rec? c with
  | none => exact .inl ⟨rfl, rfl⟩
  | some r =>
    refine .inr ⟨r, rfl, ?_⟩
    cases hl : r.link with
    | none => exact .inl ⟨rfl, by simp [hl]⟩
    | queued => exact .inr (.inl ⟨rfl, by simp [hl]⟩)
    | searching u => exact .inr (.inr ⟨u, rfl, by simp [hl]⟩)

/-- A request of a search: nothing where the main state or the link does not let it, else the lowest-numbered IDLE unit starts, or
the context joins the tail of the queue. -/
theorem requestSearch_cases (c : Nat) (b : Bool) (s : State) :
    requestSearch c b s = s ∨
    ∃ r, s.rec? c = some r ∧ r.main.searchable = true ∧ r.link = .none ∧
      ((∃ u, s.idleUnit = some u ∧ requestSearch c b s = startSearch u c b s) ∨
       (s.idleUnit = none ∧ requestSearch c b s = { setLink .queued c s with queue := s.queue ++ [c] })) := by
  unfold requestSearch
  cases h : s.rec? c with
  | none => exact .inl rfl
  | some r =>
    cases hm : r.main.searchable with
    | false => exact .inl (by simp [hm])
    | true =>
      cases hl : r.link with
      | queued => exact .inl (by simp [hm, hl])
      | searching u => exact .inl (by simp [hm, hl])
      | none =>
        refine .inr ⟨r, rfl, hm, hl, ?_⟩
        cases hu : s.idleUnit with
        | some u => exact .inl ⟨u, rfl, by simp [hm, hl]⟩
        | none => exact .inr ⟨rfl, by simp [hm, hl]⟩

/-- A change of main state: nothing for a VACANT context or its own state; otherwise the record's part, the end of its search on
entering HELD or CUT, and a detail record. -/
theorem changeMain_cases (m : MainState) (c : Nat) (b : Bool) (s : State) :
    (s.rec? c = none ∧ changeMain m c b s = s) ∨
    ∃ r, s.rec? c = some r ∧
      ((r.main = m ∧ changeMain m c b s = s) ∨
       (r.main ≠ m ∧ changeMain m c b s = writeDetail c (.main r.main m s.stamp)
         (if m.searchable then s.setRec c (enterMain m r) else endSearch c b (s.setRec c (enterMain m r))))) := by
  unfold changeMain
  cases h : s.rec? c with
  | none => exact .inl ⟨rfl, rfl⟩
  | some r =>
    refine .inr ⟨r, rfl, ?_⟩
    by_cases hm : r.main = m
    · exact .inl ⟨hm, by simp [hm]⟩
    · exact .inr ⟨hm, by simp [hm]⟩

/-- A command on a key: refused RANGE or UNBOUND with no effect, or carried out on the record of the index's context. -/
theorem keyed_cases (hw slot : Byte) (s : State) (f : Nat → Record → State × Reply) :
    (keyInRange hw slot = false ∧ keyed hw slot s f = (s, refuse .range)) ∨
    (keyInRange hw slot = true ∧
      (((∀ c r, tget (position hw.toNat slot.toNat) s.index = some c → s.rec? c ≠ some r) ∧
          keyed hw slot s f = (s, refuse .unbound)) ∨
       ∃ c r, tget (position hw.toNat slot.toNat) s.index = some c ∧ s.rec? c = some r ∧ keyed hw slot s f = f c r)) := by
  unfold keyed
  cases hk : keyInRange hw slot with
  | false => exact .inl ⟨rfl, by simp⟩
  | true =>
    refine .inr ⟨rfl, ?_⟩
    cases hi : tget (position hw.toNat slot.toNat) s.index with
    | none => exact .inl ⟨by simp, by simp⟩
    | some c =>
      cases hr : s.rec? c with
      | none => exact .inl ⟨by rintro _ r ⟨rfl⟩; simp [hr], by simp [hr]⟩
      | some r => exact .inr ⟨c, r, rfl, hr, by simp [hr]⟩

/-- What a command on a key does when the index and the context table hold its record. -/
theorem keyed_of {hw slot : Byte} {s : State} {c : Nat} {r : Record} (hk : keyInRange hw slot = true)
    (hi : tget (position hw.toNat slot.toNat) s.index = some c) (hr : s.rec? c = some r) (f : Nat → Record → State × Reply) :
    keyed hw slot s f = f c r := by
  simp [keyed, hk, hi, hr]

/-- A command message: the command's effect on the settled state, its response, and the bytes sent meanwhile. -/
theorem command_eq (n : Nat) (f : State → State × Reply) (s : State) :
    s.command n f = { (f (settle s)).1.place (f (settle s)).2 with linkOut := idleBytes n } := rfl

/-! ### Settling -/

@[simp] theorem settle_due (s : State) : (settle s).due = [] := rfl

theorem settlePass_of_due_nil {s : State} (h : s.due = []) : settlePass s = s := by
  cases s; simp_all [settlePass]

/-- Nothing due, nothing settled. -/
theorem settle_of_due_nil {s : State} (h : s.due = []) : settle s = s := by
  unfold settle
  rw [settlePass_of_due_nil h, settlePass_of_due_nil h]
  cases s; simp_all

@[simp] theorem settle_settle (s : State) : settle (settle s) = settle s := settle_of_due_nil (settle_due s)

/-- What holds of the state before a settling, and through each event, holds after it. -/
theorem settle_induction {P : State → Prop} (hdue : ∀ t, P t → P { t with due := [] }) (hev : ∀ e t, P t → P (takeEvent e t))
    {s : State} (h : P s) : P (settle s) := by
  have pass : ∀ t, P t → P (settlePass t) := by
    intro t ht
    unfold settlePass
    suffices H : ∀ (l : List DueEvent) (x : State), P x → P (l.foldl (fun t e => takeEvent e t) x) from H _ _ (hdue _ ht)
    intro l
    induction l with
    | nil => exact fun x hx => hx
    | cons e l ih => exact fun x hx => ih _ (hev e x hx)
  exact hdue _ (pass _ (pass _ h))

end Sys2Proof.Machine
end

