-- ==== Sys2Proof/Laws/PerInstr.lean ====
section
/-! SUPPORT. A statement about every constructor of Instr, one lemma each: the length of its message on the control link. -/

namespace Sys2Proof.Laws.EncodedLength

/-- A well-formed step that is a link command has a message of n + 3 bytes, n its length byte, n at most 48 (R176). -/
def Statement (i : Instr) : Prop :=
  ∀ bytes, wellFormed i = true → encodeMessage i = some bytes →
    bytes.length = (bytes.getD 1 0).toNat + 3 ∧ bytes.length ≤ 51

/-- A step that is no link command has no message. -/
theorem of_none {i : Instr} (h : commandBody i = none) : Statement i := by
  intro bytes _ he; simp [encodeMessage, h] at he

/-- A step whose message has `n` body bytes, `n` at most 48. -/
theorem of_body {i : Instr} {code : Byte} {body : List Byte}
    (h : wellFormed i = true → commandBody i = some (code, body) ∧ body.length ≤ 48) : Statement i := by
  intro bytes hw he
  obtain ⟨hb, hl⟩ := h hw
  simp only [encodeMessage, hb, Option.some.injEq] at he
  subst he
  have : body.length % 256 = body.length := Nat.mod_eq_of_lt (by omega)
  simp [this]
  omega

/-- The bytes of a list of 16-bit fields. -/
theorem flatMap_be16_length (l : List Coeff) : (l.flatMap be16).length = 2 * l.length := by
  induction l with
  | nil => rfl
  | cons x l ih => simp [be16] at ih ⊢; omega

theorem powerOn : Statement (.powerOn) := of_none rfl
theorem frame (a b : List Sample) (c : List SyncMarks) : Statement (.frame a b c) := of_none rfl
theorem lock (a : Nat) : Statement (.lock a) := of_none rfl
theorem syncLost (a : Nat) : Statement (.syncLost a) := of_none rfl
theorem syncBack (a : Nat) : Statement (.syncBack a) := of_none rfl
theorem blockBoundary : Statement (.blockBoundary) := of_none rfl
theorem convergence (a : Nat) : Statement (.convergence a) := of_none rfl
theorem expiry (a : Nat) : Statement (.expiry a) := of_none rfl
theorem cut (a : Nat) : Statement (.cut a) := of_none rfl
theorem recovery (a : Nat) : Statement (.recovery a) := of_none rfl
theorem level (a : Nat) (b : Dir) : Statement (.level a b) := of_none rfl
theorem noiseFloorRise (a : Nat) : Statement (.noiseFloorRise a) := of_none rfl
theorem stampAdvance : Statement (.stampAdvance) := of_none rfl
theorem windowEnd (a : Nat) : Statement (.windowEnd a) := of_none rfl
theorem toneEntry (a : Nat) : Statement (.toneEntry a) := of_none rfl
theorem release (a : Nat) : Statement (.release a) := of_none rfl
theorem searchCompletion (a : Nat) : Statement (.searchCompletion a) := of_none rfl
theorem searchFailure (a : Nat) : Statement (.searchFailure a) := of_none rfl
theorem read (a b : Nat) : Statement (.read a b) := of_none rfl
theorem commandMessage (a : List Byte) (b : Nat) : Statement (.commandMessage a b) := of_none rfl
theorem bind (a b c d : Byte) : Statement (.bind a b c d) := of_body fun _ => ⟨rfl, by simp⟩
theorem retire (a b : Byte) : Statement (.retire a b) := of_body fun _ => ⟨rfl, by simp⟩
theorem engage (a b : Byte) : Statement (.engage a b) := of_body fun _ => ⟨rfl, by simp⟩
theorem hold (a b : Byte) : Statement (.hold a b) := of_body fun _ => ⟨rfl, by simp⟩
theorem resume (a b : Byte) : Statement (.resume a b) := of_body fun _ => ⟨rfl, by simp⟩
theorem restore (a b : Byte) : Statement (.restore a b) := of_body fun _ => ⟨rfl, by simp⟩
theorem search (a b : Byte) : Statement (.search a b) := of_body fun _ => ⟨rfl, by simp⟩
theorem query (a b : Byte) : Statement (.query a b) := of_body fun _ => ⟨rfl, by simp⟩
theorem amendSpan (a b c : Byte) : Statement (.amendSpan a b c) := of_body fun _ => ⟨rfl, by simp⟩
theorem amendWindows (a b c d e f : Byte) : Statement (.amendWindows a b c d e f) := of_body fun _ => ⟨rfl, by simp⟩
theorem amendProfile (a b c : Byte) : Statement (.amendProfile a b c) := of_body fun _ => ⟨rfl, by simp⟩
theorem readTaps (a b c d : Byte) : Statement (.readTaps a b c d) := of_body fun _ => ⟨rfl, by simp⟩
theorem writeTaps (a b c d : Byte) (e : List Coeff) : Statement (.writeTaps a b c d e) := of_body fun h => ⟨rfl, by
  have : e.length = 16 := by simpa [wellFormed] using h
  simp only [List.length_cons, flatMap_be16_length]; omega⟩
theorem readPool : Statement (.readPool) := of_body fun _ => ⟨rfl, by decide⟩
theorem setProfile (a : Byte) (b : ProfileMsg) : Statement (.setProfile a b) := of_body fun _ => ⟨rfl, by simp [profileBytes, be16, be32, levelBytes]⟩
theorem readProfile (a : Byte) : Statement (.readProfile a) := of_body fun _ => ⟨rfl, by simp⟩
theorem configure (a b c d e : Byte) : Statement (.configure a b c d e) := of_body fun _ => ⟨rfl, by simp⟩
theorem readConfig : Statement (.readConfig) := of_body fun _ => ⟨rfl, by decide⟩
theorem resetHighway (a : Byte) : Statement (.resetHighway a) := of_body fun _ => ⟨rfl, by simp⟩
theorem resetStamp : Statement (.resetStamp) := of_body fun _ => ⟨rfl, by decide⟩
theorem fetchNotice : Statement (.fetchNotice) := of_body fun _ => ⟨rfl, by decide⟩

end Sys2Proof.Laws.EncodedLength
end

