-- ==== Sys2Proof/Tests/Slice0.lean ====
section
/-! SUPPORT. Tests. The tests' figures are those of the spec's worked examples and tables, named at each. A `witness_<Name>` shows, for
the statement `Obligations.<Name>`, states and operands that meet the hypotheses of its clauses. -/

namespace Sys2Proof.Tests
open Sys2Proof Sys2Proof.Machine

set_option Elab.async false

/-! ### Helpers -/

/-- The state after a step. -/
def after (i : Instr) (s : State) : State :=
  match exec i s with
  | .next t => t
  | .fault _ => s
  | .refused _ => s

/-- The status and body of the response. -/
def reply (s : State) : Option (Status × List Byte) := s.resp.map fun p => (p.status, p.body)

/-- A LOCKED highway. -/
def locked : Highway := { sync := .locked, good := 8, bad := 0, obs := none }

/-- A SEEKING highway one good observation from LOCKED. -/
def seeking : Highway := { sync := .seeking, good := 7, bad := 0, obs := some true }

/-- A LOST highway one good observation from LOCKED. -/
def lost : Highway := { sync := .lost, good := 7, bad := 0, obs := some true }

/-- A LOCKED highway one bad observation from LOST. -/
def failing : Highway := { sync := .locked, good := 0, bad := 1, obs := some false }

/-- Context 0 bound at (0, 0) with profile 0 and segments 0 to 7 at positions 0 to 7, in ACQUIRE, its first block begun. -/
def rec0 : Record :=
  { bindRecord 0 0 0 0 7 (profilePowerOn true) (List.range 8) false false with
    blk := { started := true, worked := true, model := [], sIn := [], resid := [], ref := [] } }

/-- Profile 0 with one record bound to it. -/
def profile0 : Profile := { profilePowerOn true with inUse := 1 }

/-- A part with one slot position, highway 0 LOCKED, the record `r` in context 0 at (0, 0), and the free list `free`. -/
def partOf (r : Record) (free : List Nat) : State :=
  { State.reset with
    slots := [slotPowerOn], sync := [(0, locked)], ctxs := [(0, r)], index := [(0, 0)], free := free
    profiles := tset 0 profile0 State.reset.profiles }

/-- The same with four free segments. -/
def part (r : Record) : State := partOf r [8, 9, 10, 11]

/-- The same with all the segments of the pool that the record does not hold. -/
def full (r : Record) : State := partOf r ((List.range nSegments).drop 8)

/-- Profile 0 of the part, changed. -/
def withProfile (f : Profile → Profile) (s : State) : State := s.setProfile 0 (f (s.profile 0))

/-- A search unit at work for context `c`, with counts as given. -/
def unit (c qual blocks : Nat) : SearchUnit :=
  { ctx := c, span := 32, shadow := List.replicate 1024 0, qual := qual, blocks := blocks, begun := true, resid := [] }

/-- Every segment is free or held when the record holds the pool's first segments and the free list the rest. -/
theorem segmentsSafe_of (s : State) (n : Nat) (h : rising s.ctxs = true) (hf : s.free = (List.range nSegments).drop n)
    (hh : s.heldSegs = (List.range nSegments).take n) : segmentsSafe s := by
  refine ⟨h, ?_⟩
  rw [hf, hh]
  exact List.perm_append_comm.trans (by rw [List.take_append_drop])

/-! ### Well-formed steps -/

/-- A highway, context or unit that does not exist is refused, the last that exists is not (R2, R46, R112). -/
theorem test_wellFormed_numbers :
    wellFormed (.lock 8) = false ∧ wellFormed (.syncLost 8) = false ∧ wellFormed (.syncBack 8) = false ∧ wellFormed (.lock 7) = true ∧
    wellFormed (.convergence 384) = false ∧ wellFormed (.level 384 .rx) = false ∧ wellFormed (.windowEnd 383) = true ∧
    wellFormed (.searchCompletion 4) = false ∧ wellFormed (.searchFailure 3) = true := by decide

/-- Eight odd bits are a byte; a message that begins with 0x80 is a read (R175). -/
theorem test_wellFormed_link :
    wellFormed (.read 0 8) = false ∧ wellFormed (.read 0 7) = true ∧ wellFormed (.commandMessage [0x80] 0) = false ∧
    wellFormed (.commandMessage [0x15] 8) = false ∧ wellFormed (.commandMessage [0x15] 7) = true := by decide

/-- A frame has a sample for each of 512 slot positions and marks for eight highways; WRITE TAPS has 16 values (R43, R48). -/
theorem test_wellFormed_lengths :
    wellFormed (.frame [] [] []) = false ∧ wellFormed (.writeTaps 0 0 0 0 (List.replicate 15 0)) = false ∧
    wellFormed (.writeTaps 0 0 0 0 (List.replicate 16 0)) = true := by decide

theorem test_wellFormed_frame :
    wellFormed (.frame (List.replicate 512 0) (List.replicate 512 0) (List.replicate 8 { atBoundary := true, elsewhere := false })) =
      true ∧
    wellFormed (.frame (List.replicate 512 0) (List.replicate 511 0) (List.replicate 8 { atBoundary := true, elsewhere := false })) =
      false := by decide +kernel

/-! ### Messages (R190) -/

/-- 12.8: RETIRE of (5, 17), and its response. -/
theorem test_message_retire :
    decodeMessage [0x02, 0x02, 0x05, 0x11, 0xE5] = .ok (.retire 5 17) ∧
    decodeMessage [0x02, 0x02, 0x05, 0x11] = .error .framing ∧ decodeMessage [0x02, 0x02, 0x05, 0x11, 0xE4] = .error .check ∧
    ({ emptyResponse with status := .ok, body := [0x00, 0x17, 0x09] } : Response).bytes =
      [0x00, 0x00, 0x03, 0x00, 0x17, 0x09, 0xDC] := by decide

/-- The codes of R190, each with its own body length. -/
theorem test_message_codes :
    decodeMessage [0x01, 0x04, 0x05, 0x11, 0xFF, 0x02, 0xE3] = .ok (.bind 5 17 0xFF 2) ∧
    decodeMessage [0x15, 0x00, 0xEA] = .ok .readPool ∧ decodeMessage [0x34, 0x00, 0xCB] = .ok .fetchNotice ∧
    decodeMessage [0x15, 0x01, 0x00, 0xE9] = .error .length ∧ decodeMessage [0x09, 0x00, 0xF6] = .error .unknown ∧
    decodeMessage [0x11, 0x06, 0x00, 0x01, 0x02, 0x03, 0x04, 0x05, 0xD9] = .ok (.amendWindows 0 1 2 3 4 5) := by decide

/-- COMMAND_MESSAGE hands on what it decodes, and a message in error has no effect but its response. -/
theorem test_commandMessage :
    reply (after (.commandMessage [0x04, 0x02, 0x00, 0x00, 0xF9] 3) (part rec0)) = some (.ok, [4]) ∧
    ((after (.commandMessage [0x04, 0x02, 0x00, 0x00, 0xF9] 3) (part rec0)).rec? 0).map (·.main) = some .held ∧
    reply (after (.commandMessage [0x04, 0x02, 0x00, 0x00, 0xF8] 0) (part rec0)) = some (.check, []) := by decide +kernel

/-- A read sends 0xFF, the response and then 0xFF again; one cut short keeps the response (R177). -/
theorem test_read :
    (after (.read 5 0) State.reset).linkOut = [0xFF, 0x01, 0x00, 0x00, 0xFE, 0xFF] ∧
    (after (.read 3 0) (after .readPool State.reset)).resp = (after .readPool State.reset).resp ∧
    (after (.read 11 0) (after .readPool State.reset)).resp = none := by decide +kernel

/-! ### Power-on, frames, sync -/

theorem test_powerOn :
    (after .powerOn (part rec0)).ctxs = [] ∧ (after .powerOn (part rec0)).free.length = 6144 ∧
    ((after .powerOn (part rec0)).profile 0).matchEnable = true ∧ ((after .powerOn (part rec0)).profile 1).matchEnable = false := by
  decide +kernel

/-- 4.7: the estimate, half up on both sides, and the saturation of a residual. -/
theorem test_estimate :
    estimate [(0, [16384, BitVec.ofInt 16 (-8192)])] [1001, 400] = 401 ∧
    estimate [(0, [BitVec.ofInt 16 (-16384), 8192])] [1001, 400] = BitVec.ofInt 16 (-400) ∧
    residual { rec0 with blk := { rec0.blk with model := [(0, [16384, BitVec.ofInt 16 (-8192)])] } } [1001, 400] 1500 = 1099 ∧
    sat16 (20000 - -20000) = 32767 := by decide +kernel

/-- The middle of a block: the filter has the taps of 4.7, the reference sample of the frame is 1001, Px 1,000,000, La_rx 1000. -/
def midBlock : State :=
  let m := [(0, [16384, BitVec.ofInt 16 (-8192)])]
  let r := { rec0 with
    blk := { rec0.blk with model := m }, meas := { rec0.meas with px := 1000000 }
    lev := { rec0.lev with rx := { rec0.lev.rx with avg := 1000 } } }
  { part r with phase := 1, slots := [{ slotPowerOn with r2 := 1001, hist := [400] }] }

/-- 4.7, 10.6: a worked frame: S_out after two frames is the residual 1099, R_out passes at gain 4096, La_rx rises to 1031. -/
theorem test_frame_worked :
    let t := after (.frame [3000] [1500] []) midBlock
    t.slots = [{ rOut := 1001, sOut := 0, r1 := 3000, r2 := 0, s1 := 1099, s2 := 0, hist := [1001, 400] }] ∧
    (t.rec? 0).map (fun r => (r.lev.rx.avg, r.blk.resid, r.blk.ref)) = some (1031, [1099], [1001]) ∧ t.phase = 2 := by decide +kernel

/-- 6.7: frame 0 of the clipped block. -/
theorem test_frame_noise :
    let g : GateGroup := { state := .far, far := 8, near := 0 }
    let s := part { rec0 with main := .track, gate := g, resid := { nf := 100, rise := 0, noise := 1 } }
    let t := after (.frame [0] [150] []) s
    t.slots.map (·.s1) = [BitVec.ofInt 16 (-59)] ∧ (t.rec? 0).map (·.resid.noise) = some 0xB400 := by decide +kernel

/-- 6.7: the comfort noise of the other replaced samples. -/
theorem test_comfortNoise :
    (noiseStep 1, noiseStep 0xB400, noiseStep 0x5A00, noiseStep 0x2D00, noiseStep 0x1680) =
      (0xB400, 0x5A00, 0x2D00, 0x1680, 0x0B40) ∧
    (comfortNoise 0x5A00 100, comfortNoise 0x2D00 100, comfortNoise 0x1680 100, comfortNoise 0x0B40 100) = (70, 35, 18, 9) := by
  decide

/-- 4.8, 10.6: averages. -/
theorem test_averages :
    [average64 1000000 1000000, average64 1000000 4000000, average64 1046875 0, average64 1030517 0, average64 1014415 (sq 0x8000)] =
      [1000000, 1046875, 1030517, 1014415, 17775780] ∧
    [average64 1000 3000, average64 1031 0, average64 1014 (mag 0x8000), average64 40 50, average64 60 50] = [1031, 1014, 1510, 40, 59] :=
  by decide

/-- 10.5: gains. -/
theorem test_gain :
    [applyGain 10000 5000, applyGain 0x8000 8192, applyGain 32767 8192, applyGain 3 2048, applyGain (BitVec.ofInt 16 (-3)) 2048] =
      [12207, 0x8000, 32767, 2, BitVec.ofInt 16 (-1)] := by decide

/-- 9.5: the resonator and the tonal test. -/
theorem test_resonator :
    let d := resonate (BitVec.ofInt 16 (-900)) (resonate 500 (resonate 1000 emptyDir))
    let w : ToneDir := { emptyDir with acc1 := 40000, acc2 := 4000, energy := 40000000 }
    let v := { w with acc1 := -39000, acc2 := -4200, prev := some (40000, 4000) }
    (d.acc1, d.acc2) = (-1954, 343) ∧ tonePower w = 1641107422 ∧ tonal 800000 w = true ∧ reverses 800000 v = true := by decide

/-- 3.9: frame 101, frame 109, and a first LOCK. -/
theorem test_sync :
    tget 0 (after (.lock 0) { part rec0 with sync := [(0, seeking)] }).sync = some locked ∧
    (tget 0 (after (.syncLost 0) { part rec0 with sync := [(0, failing)] }).sync).map (fun y => (y.sync, y.good, y.bad)) =
      some (.lost, 0, 2) ∧
    (after (.syncLost 0) { part rec0 with sync := [(0, failing)] }).hwPending 0 = 1 ∧
    tget 0 (after (.syncBack 0) { part rec0 with sync := [(0, lost)] }).sync = some locked ∧
    (after (.syncBack 0) { part rec0 with sync := [(0, lost)] }).hwPending 0 = 2 := by decide +kernel

/-! ### Block boundary -/

/-- Samples of integers. -/
def smp (l : List Int) : List Sample := l.map (BitVec.ofInt 16)

/-- 4.9: the end of the block, its record in ACQUIRE with 8 segments, run 20, c_28 12288 and Px 5,900,000. -/
def blockEnd : State :=
  let ref := smp [4000, -3000, 2500, 0, 1000, 3000, -2000, 1500]
  let r := { rec0 with
    conv := { rec0.conv with run := 20 }, meas := { rec0.meas with px := 5900000 }
    blk := { rec0.blk with
      sIn := smp [500, 1000, -500, 1500, 0, -1000, 500, 250], resid := smp [125, 250, -125, 375, 0, -250, 125, 62], ref := ref } }
  let hist := ref.reverse ++ List.replicate 20 0 ++ smp [500, 1000, -2000, 0, 3000, -1000, 2000, 1000]
  { full r with phase := 8, slots := [{ slotPowerOn with hist := hist }], pool := [(1, (List.replicate 16 0).set 12 12288)] }

/-- 4.9: energies, run, gate, and the update of tap 28, coefficient 12 of segment 1. -/
theorem test_blockBoundary :
    let t := after .blockBoundary blockEnd
    (t.rec? 0).map (fun r => (r.meas.es, r.meas.ee, r.meas.ef)) = some (5062500, 316344, 47500000) ∧
    (t.rec? 0).map (fun r => (r.conv.run, r.conv.deadline, r.gate)) = some (21, 1, { state := .far, far := 8, near := 0 }) ∧
    (segRead t.pool 1).getD 12 0 = 12295 ∧ t.blockCounter = 1 := by decide +kernel

/-- 4.9, 7.5: steps and saturation. -/
theorem test_stepCoeff :
    [stepCoeff 1 32 0 3, stepCoeff 1 32 0 (-3), stepCoeff 1 32 0 1] = smp [2, -2, 1] ∧
    stepCoeff 128 (1024 * 1000000 + 65536) 0 2400000 = 5 ∧ sat16 (32760 + 20) = 32767 ∧ sat16 (-32768 - 1) = 0x8000 := by decide

/-- 6.6: the gate through blocks 3, 4, 5 and 10, by hangovers before and tests. -/
theorem test_gate :
    gateOf (hangover 8 8 false) (hangover 30 0 false) = .far ∧ gateOf (hangover 8 7 false) (hangover 30 0 true) = .double ∧
    hangover 30 30 false = 29 ∧ gateOf (hangover 8 1 false) (hangover 30 30 true) = .near := by decide

/-- 6.8, 10.7, 10.8: the noise floor's fall, the levels of a receive direction. -/
theorem test_floor_and_levels :
    let b := { rec0.blk with sIn := smp [30, -50, 45, -20, 60, -35, 25, -40] }
    (floorEnd .idle { rec0 with blk := b }).nf = 38 ∧ raisedFloor 38 = 39 ∧ raisedFloor 640 = 650 ∧ raisedFloor 32767 = 32767 ∧
    (adjust profile0.rx { gain := 4096, avg := 1700, limit := 5 }) = { gain := 4128, avg := 1700, limit := 0 } ∧
    (adjust profile0.rx { gain := 4224, avg := 1700, limit := 5 }) = { gain := 4224, avg := 1700, limit := 0 } ∧
    (adjust profile0.rx { gain := 16384, avg := 200, limit := 999 }) = { gain := 16384, avg := 200, limit := 1000 } := by decide

/-- 8.7, 8.8: a bad block, a good one, one that is neither, and the cut. -/
theorem test_divergence :
    divAfter 90 1000000 1200000 = 98 ∧ bandOf 98 = .warned ∧ divAfter 98 5062500 316344 = 97 ∧ divAfter 97 1000000 600000 = 97 ∧
    bandOf 135 = .suspect ∧ cutsAt 250 1 2 = true ∧ cutsAt 247 1 2 = false := by decide

/-- A record of `n` segments with a main state and skip count. -/
def sized (main : MainState) (n skip : Nat) : Record :=
  { bindRecord 0 0 0 0 0 (profilePowerOn true) (List.range n) false false with main := main, skip := skip }

/-- 5.5, 5.6: the candidates. -/
def candidates55 : List (Nat × Record) :=
  ((List.range 60).map fun c => (c, sized .track 64 0)) ++
    [(100, sized .acquire 8 0), (200, sized .track 64 16), (300, sized .track 32 0), (301, sized .track 16 0)]

theorem test_walk :
    walk tapBudget (walkOrder .urgency 40 candidates55) = [200, 100] ++ List.range 46 ++ [300, 301] ∧
    walk tapBudget (walkOrder .index 40 candidates55) = (List.range 20).map (· + 40) ++ [100, 200, 300, 301] ++ List.range 26 ∧
    pointerAfter .index 40 (walk tapBudget (walkOrder .index 40 candidates55)) = 26 := by decide +kernel

/-! ### Events -/

/-- 4.10, R81: a convergence; R84: a first expiry, which starts a search on unit 0. -/
theorem test_convergence :
    ((after (.convergence 0) { part rec0 with due := [.convergence 0] }).rec? 0).map (fun r => (r.main, r.notes.kinds, r.notes.detail)) =
      some (.track, 1, some (.main .acquire .track 0)) ∧
    ((after (.convergence 0) (part rec0)).rec? 0) = some rec0 := by decide +kernel

theorem test_expiry :
    let r := { rec0 with conv := { rec0.conv with deadline := 625 } }
    let t := after (.expiry 0) { part r with due := [.expiry 0] }
    (t.rec? 0).map (fun r => (r.conv.deadline, r.conv.expiry, r.link, r.notes.kinds)) = some (0, 1, .searching 0, 2) ∧
    (tget 0 t.units).map (fun u => (u.ctx, u.span, u.begun)) = some (0, 32, true) := by decide +kernel

/-- 8.8: the cut and the recovery. -/
theorem test_cut :
    let r := { rec0 with main := .track, conv := { rec0.conv with convergedOnce := true, run := 4 }
                         div := { count := 250, band := .suspect, quiet := 0 } }
    let t := after (.cut 0) { part r with due := [.cut 0], pool := [(3, List.replicate 16 7)] }
    (t.rec? 0).map (fun r => (r.main, r.div, r.conv.convergedOnce, r.conv.run)) =
      some (.cut, { count := 256, band := .suspect, quiet := 0 }, false, 0) ∧ t.pool = [] ∧
    (t.rec? 0).map (fun r => (r.notes.kinds, r.notes.detail)) = some (32, some (.main .track .cut 0)) := by decide +kernel

theorem test_recovery :
    let r := { rec0 with main := .cut, div := { count := 256, band := .suspect, quiet := 128 } }
    let t := after (.recovery 0) { part r with due := [.recovery 0] }
    (t.rec? 0).map (fun r => (r.main, r.div, r.link, r.notes.detail)) =
      some (.acquire, soundGroup, .searching 0, some (.main .cut .acquire 0)) := by decide +kernel

/-- 10.8: the thousandth limit block; 6.8: a rise. -/
theorem test_level :
    let r := { rec0 with lev := { rec0.lev with rx := { rec0.lev.rx with limit := 1000 } } }
    let t := after (.level 0 .rx) { part r with due := [.level 0 .rx] }
    (t.rec? 0).map (fun r => (r.lev.rx.limit, r.notes.kinds)) = some (0, 256) := by decide +kernel

theorem test_noiseFloorRise :
    let r := { rec0 with resid := { rec0.resid with nf := 640, rise := 15 } }
    ((after (.noiseFloorRise 0) { part r with due := [.noiseFloorRise 0] }).rec? 0).map (fun r => (r.resid.nf, r.resid.rise)) =
      some (650, 0) := by decide +kernel

/-- 3.8: unit 4, prescale count 3; and the wrap of R61. -/
theorem test_stampAdvance :
    let s := { State.reset with stampUnit := 4, prescale := 3, stamp := 0xFFFF, phase := 8 }
    (after .blockBoundary s).due = [.stampAdvance] ∧ (after .stampAdvance (after .blockBoundary s)).prescale = 0 ∧
    (after .stampAdvance (after .blockBoundary s)).stamp = 0 := by decide +kernel

/-- 9.6: window 19, and window 32 with the entry to BYPASS that follows. -/
theorem test_windowEnd :
    let tx : ToneDir := { acc1 := -39000, acc2 := -4200, energy := 40000000, prev := some (40000, 4000), run := 16, gap := 1 }
    let s := fun run => { part { rec0 with tone := { rec0.tone with tx := { tx with run := run } } } with due := [.windowEnd 0] }
    ((after (.windowEnd 0) (s 16)).rec? 0).map (fun r => (r.tone.tx.run, r.tone.tx.gap, r.tone.reversal, r.tone.rx.gap)) =
      some (17, 0, true, 1) ∧
    (after (.windowEnd 0) (s 29)).due = [.toneEntry 0] := by decide +kernel

theorem test_toneEntry :
    let s := { part { rec0 with tone := { rec0.tone with reversal := true } } with due := [.toneEntry 0] }
    ((after (.toneEntry 0) s).rec? 0).map (fun r => (r.tone.sub, r.notes.kinds, r.notes.detail)) =
      some (.bypass, 128, some (.tone .none .bypass 0)) := by decide +kernel

theorem test_release :
    let t := { rec0.tone with sub := .bypass, release := 25, reversal := true }
    let s := { part { rec0 with tone := t, conv := { rec0.conv with run := 9 } } with due := [.release 0] }
    ((after (.release 0) s).rec? 0).map (fun r => (r.tone, r.conv.run, r.notes.detail)) =
      some (rec0.tone, 0, some (.tone .bypass .none 0)) := by decide +kernel

/-! ### Searches -/

/-- A shadow filter of 32 segments with one tap in each of some segments. -/
def shadowOf (l : List (Nat × Nat)) : List Coeff :=
  (List.range 32).flatMap (fun p => BitVec.ofNat 16 ((tget p l).getD 0) :: List.replicate 15 0) ++ List.replicate 512 0

/-- 7.6: the main case and cases B, C and D, with energies that are squares of one tap near the table's. -/
theorem test_evaluate :
    let b := profile0.bindTime
    let main := [(3, 3000), (4, 2449), (5, 1581), (20, 1733), (21, 1414)]
    evaluate b (shadowOf main) 32 = some ((2, 8), some (19, 4)) ∧
    evaluate b (shadowOf (tset 20 1414 main)) 32 = some ((2, 8), none) ∧
    evaluate b (shadowOf (tset 12 1871 main)) 32 = some ((2, 13), none) ∧
    evaluate b (shadowOf [(3, 1023)]) 32 = none := by decide +kernel

/-- 7.6: case F. -/
theorem test_evaluate_F :
    evaluate profile0.bindTime (shadowOf [(3, 3000), (4, 2449), (5, 1581), (20, 1733), (21, 1414), (31, 4473)]) 32 =
      some ((2, 4), some (24, 8)) := by decide +kernel

/-- The state of 7.6: TRACK, one window 0 to 7, and its search complete on unit 1; `free` as given. -/
def searched (free : List Nat) : State :=
  let r := { rec0 with main := .track, link := .searching 1, conv := { rec0.conv with convergedOnce := true, run := 32 } }
  let sh := shadowOf [(3, 3000), (4, 2449), (5, 1581), (20, 1733), (21, 1414)]
  { partOf r free with units := [(1, { unit 0 64 70 with shadow := sh })] }

/-- 7.6: the hand-off of the main case and of case E. -/
theorem test_searchCompletion :
    let t := after (.searchCompletion 1) (searched [8, 9, 10, 11])
    (t.rec? 0).map (fun r => (r.main, r.wins.first, r.wins.second, r.link)) =
      some (.acquire, { base := 2, limit := 9, segs := [8, 9, 10, 11, 0, 1, 2, 3] },
        some { base := 19, limit := 22, segs := [4, 5, 6, 7] }, .none) ∧
    (t.rec? 0).map (fun r => (r.conv.run, r.conv.convergedOnce, r.notes.kinds)) = some (0, true, 4) ∧
    (segRead t.pool 9).getD 0 0 = 3000 ∧ (segRead t.pool 5).getD 0 0 = 1733 ∧ t.free = [] ∧ t.units = [] := by decide +kernel

theorem test_searchCompletion_short :
    let t := after (.searchCompletion 1) (searched [8, 9])
    (t.rec? 0).map (fun r => (r.wins.first, r.wins.second, r.wins.shortened)) =
      some ({ base := 2, limit := 9, segs := [8, 9, 0, 1, 2, 3, 4, 5] }, none, true) ∧ t.free = [6, 7] := by decide +kernel

/-- 7.8: the unit takes the head of the queue. -/
theorem test_searchFailure :
    let s := { part { rec0 with link := .searching 3 } with
      ctxs := [(0, { rec0 with link := .searching 3 }), (5, { rec0 with link := .queued })], queue := [5], units := [(3, unit 0 41 512)] }
    let t := after (.searchFailure 3) s
    (t.rec? 0).map (fun r => (r.link, r.notes.kinds, r.wins)) = some (.none, 8, rec0.wins) ∧ t.queue = [] ∧
    (t.rec? 5).map (·.link) = some (.searching 3) ∧ (tget 3 t.units).map (fun u => (u.ctx, u.qual, u.blocks)) = some (5, 0, 0) := by
  decide +kernel

/-! ### Circuit records -/

/-- 1.8: profile 2, highway 5, contexts 0 to 22 and 24 to 40 bound, nine segments free, units 0, 1 and 3 searching. -/
def pressed : State :=
  let f := { profilePowerOn true with
    selHw := 5, hwMask := 7, inUse := 30
    bindTime := { profile0.bindTime with span := 48, b0 := 40, w0 := 12, minSeg := 6 } }
  { State.reset with
    sync := [(5, locked)], ctxs := ((List.range 41).filter fun c => c ≠ 23).map fun c => (c, rec0)
    free := [5120, 5121, 77, 78, 79, 80, 3000, 3001, 3002], units := [(0, unit 0 0 0), (1, unit 1 0 0), (3, unit 2 0 0)]
    profiles := tset 0 (profilePowerOn false) (tset 2 f State.reset.profiles) }

theorem test_bind :
    let t := after (.bind 5 17 0xFF 0) pressed
    reply t = some (.ok, [0, 23, 2, 9, 39, 47, 48, 2, 0x12]) ∧ t.resp.map (·.shortened) = some true ∧
    (t.rec? 23).map (·.wins.first.segs) = some [5120, 5121, 77, 78, 79, 80, 3000, 3001, 3002] ∧ t.free = [] ∧
    (t.profile 2).inUse = 31 ∧ tget 337 t.index = some 23 := by decide +kernel

theorem test_bind_refused :
    reply (after (.bind 5 18 0xFF 0) (after (.bind 5 17 0xFF 0) pressed)) = some (.noRoom, []) ∧
    reply (after (.bind 4 18 0xFF 0) pressed) = some (.highwayOff, []) := by decide +kernel

theorem test_retire :
    let t := after (.retire 5 17) (after (.bind 5 17 0xFF 0) pressed)
    reply t = some (.ok, [0, 23, 9]) ∧ t.free = pressed.free ∧ tget 337 t.index = none ∧ (t.profile 2).inUse = 30 ∧
    (t.rec? 23).isNone ∧ tget 2 t.units = none := by decide +kernel

/-- R22: the two ways of ENGAGE. -/
theorem test_engage :
    let o := { rec0 with main := .observe }
    reply (after (.engage 0 0) (part o)) = some (.ok, [2]) ∧
    reply (after (.engage 0 0) (part { o with conv := { o.conv with observeConverged := true } })) = some (.ok, [3]) ∧
    reply (after (.engage 0 0) (part rec0)) = some (.state, []) := by decide +kernel

/-- 7.7: HOLD of a searching record; its unit takes the head. -/
theorem test_hold :
    let s := { part rec0 with
      ctxs := [(0, { rec0 with link := .searching 1 }), (30, { rec0 with link := .queued }), (31, { rec0 with link := .queued })]
      queue := [30, 31], units := [(0, unit 10 0 0), (1, unit 0 9 9), (2, unit 20 0 0), (3, unit 21 0 0)] }
    let t := after (.hold 0 0) s
    reply t = some (.ok, [4]) ∧ (t.rec? 0).map (fun r => (r.main, r.link)) = some (.held, .none) ∧ t.queue = [31] ∧
    (tget 1 t.units).map (·.ctx) = some 30 := by decide +kernel

theorem test_resume :
    let h := { rec0 with main := .held }
    reply (after (.resume 0 0) (part h)) = some (.ok, [2]) ∧
    reply (after (.resume 0 0) (part { h with conv := { h.conv with convergedOnce := true } })) = some (.ok, [3]) ∧
    reply (after (.resume 0 0) (part { h with div := { count := 256, band := .suspect, quiet := 0 } })) = some (.state, []) := by
  decide +kernel

theorem test_restore :
    let h := { rec0 with main := .cut, div := { count := 256, band := .suspect, quiet := 7 } }
    let t := after (.restore 0 0) { part h with pool := [(0, List.replicate 16 1)] }
    reply t = some (.ok, [2, 0x10]) ∧ (t.rec? 0).map (fun r => (r.main, r.div)) = some (.acquire, soundGroup) ∧ t.pool = [] := by
  decide +kernel

theorem test_search :
    reply (after (.search 0 0) (part rec0)) = some (.ok, [0x10]) ∧
    (after (.search 0 0) (part { rec0 with link := .queued })).resp.map (fun p => (p.already, p.body)) = some (true, [1]) ∧
    reply (after (.search 0 0) (part { rec0 with main := .held })) = some (.state, []) := by decide +kernel

/-- 1.8: Es above 32 bits is reported as 4,294,967,295. -/
theorem test_query :
    let t := after (.query 0 0) (part { rec0 with meas := { rec0.meas with es := 5600000000 } })
    (t.resp.map fun p => (p.body.length, p.body.take 12, (p.body.drop 20).take 4)) =
      some (54, [0, 0, 2, 0, 0, 7, 32, 0, 7, 0, 0, 0], [255, 255, 255, 255]) := by decide +kernel

/-! ### Segments -/

/-- 2.9: the record after its search, the free list after the other record's return. -/
def relocatable : State :=
  let w : Window := { base := 9, limit := 16, segs := [900, 901, 902, 100, 101, 102, 103, 104] }
  { partOf { rec0 with wins := { first := w, second := none, shortened := true }, conv := { rec0.conv with run := 3 } }
      [105, 106, 107, 2000, 2001, 2002, 2003] with
    pool := [(900, List.replicate 16 5), (104, List.replicate 16 6)] }

theorem test_amendWindows :
    let t := after (.amendWindows 0 0 9 8 24 4) relocatable
    reply t = some (.ok, [9, 16, 1, 24, 27, 12, 2, 0, 3]) ∧ t.free = [102, 103, 104] ∧
    (t.rec? 0).map (fun r => (r.wins.first.segs, r.wins.second.map (·.segs), r.wins.shortened, r.conv.run)) =
      some ([105, 106, 107, 2000, 2001, 2002, 2003, 900], some [901, 902, 100, 101], false, 0) ∧
    segRead t.pool 105 = List.replicate 16 5 ∧ segRead t.pool 900 = List.replicate 16 6 ∧ segRead t.pool 901 = zeroSeg := by
  decide +kernel

/-- 2.9: AMEND SPAN to 26; then to 8 and to 100. -/
theorem test_amendSpan :
    let t := after (.amendSpan 0 0 26) (after (.amendWindows 0 0 9 8 24 4) relocatable)
    reply t = some (.ok, [26, 9, 16, 1, 24, 25, 2, 0x10]) ∧ t.free = [102, 103, 104, 100, 101] ∧
    reply (after (.amendSpan 0 0 8) t) = some (.range, []) ∧
    (after (.amendSpan 0 0 100) t).resp.map (fun p => (p.clamped, p.body)) = some (true, [64, 9, 16, 1, 24, 25, 0, 0x10]) := by
  decide +kernel

theorem test_readTaps :
    reply (after (.readTaps 0 0 0 7) { part rec0 with pool := [(7, (List.replicate 16 0).set 1 0x1234)] }) =
      some (.ok, [0, 7, 0, 112, 0, 0, 0x12, 0x34] ++ List.replicate 28 0) ∧
    reply (after (.readTaps 0 0 0 8) (part rec0)) = some (.range, []) := by decide +kernel

theorem test_writeTaps :
    (after (.writeTaps 0 0 0 7 (List.replicate 16 3)) (part { rec0 with main := .held })).pool = [(7, List.replicate 16 3)] ∧
    reply (after (.writeTaps 0 0 0 7 (List.replicate 16 3)) (part rec0)) = some (.state, []) := by decide +kernel

/-- 7.7: three units searching, the queue empty. -/
theorem test_readPool : reply (after .readPool { part rec0 with units := [(0, unit 0 0 0), (1, unit 1 0 0), (3, unit 2 0 0)] }) =
    some (.ok, [0, 4, 0, 1, 0, 0, 0x0B]) := by decide +kernel

/-! ### Profiles -/

/-- 11.4: profile 3 as it stands. -/
def profile3 : Profile :=
  { profilePowerOn false with
    bindTime := { profile0.bindTime with span := 64, w0 := 16, minSeg := 8 }, inUse := 5 }

/-- The part of 11.4. -/
def edited : State := (part rec0).setProfile 3 profile3

/-- 11.4: the second SET PROFILE 3. -/
def edit3 : ProfileMsg :=
  { profile3.msg with span := 100, muTrack := 0, rx := { profile3.rx.msg with gmin := 2000, gmax := 20000, g0 := 1000 } }

theorem test_setProfile :
    reply (after (.setProfile 3 { edit3 with rx := { edit3.rx with gmax := 1500 } }) edited) = some (.range, []) ∧
    (after (.setProfile 3 edit3) edited).resp.map (fun p => (p.status, p.clamped, p.body)) = some (.ok, true, [3, 0, 5]) ∧
    (after (.setProfile 3 edit3) edited).profile 3 =
      { profile3 with muTrack := 1, rx := { profile3.rx with gmin := 2000, gmax := 20000, g0 := 2000 } } ∧
    reply (after (.setProfile 3 { profile3.msg with w0 := 12 }) edited) = some (.inUse, []) := by decide +kernel

theorem test_readProfile :
    (after (.readProfile 3) (after (.setProfile 3 edit3) edited)).resp.map
        (fun p => (p.body.length, p.body.getD 5 0, p.body.getD 7 0, p.body.getD 11 0, p.body.drop 48)) = some (50, 64, 16, 1, [0, 5]) ∧
    (after (.readProfile 3) (after (.setProfile 3 edit3) edited)).resp.map (fun p => (p.body.drop 21).take 8) =
      some [0x07, 0xD0, 0x07, 0xD0, 0x4E, 0x20, 0x07, 0xD0] := by decide +kernel

theorem test_amendProfile :
    let t := after (.amendProfile 0 0 4) (part rec0)
    reply t = some (.ok, [4, 0, 1]) ∧ (t.profile 0).inUse = 0 ∧ (t.rec? 0).map (·.id.profile) = some 4 := by decide +kernel

/-! ### Part-wide commands and notices -/

theorem test_configure :
    let t := after (.configure 0x03 0x0D 0x0F 1 8) (part rec0)
    reply t = some (.ok, [0x03, 0x0D, 0x0F, 1, 8, 2, 1, 0, 0, 0, 0, 0, 0, 0, 0]) ∧ t.settings.routeBack = .both ∧
    reply (after (.configure 0x02 0 0 0 1) (part rec0)) = some (.inUse, []) ∧
    reply (after (.configure 0x03 0 0 0 3) (part rec0)) = some (.range, []) := by decide +kernel

theorem test_readConfig :
    reply (after .readConfig State.reset) = some (.ok, [0, 0x05, 0, 0, 1, 0, 0, 0, 0, 0, 0, 0, 0, 0, 0]) := by decide +kernel

/-- 3.10: the queue and unit 2 through the reset of highway 3. -/
def resetting : State :=
  let on := fun (h sl g : Nat) (l : SearchLink) => { bindRecord 0 h sl 0 0 profile0 [g] false false with link := l }
  { State.reset with
    slots := List.replicate 512 { slotPowerOn with hist := [1] }, sync := [(3, lost), (6, locked)], hwKinds := [(3, 1)]
    ctxs := [(1, on 6 1 55 (.searching 1)), (3, on 6 2 56 (.searching 3)), (5, on 3 5 50 .queued),
      (40, on 3 40 51 (.searching 2)), (200, on 3 20 52 .none), (300, on 6 30 53 .queued),
      (310, on 6 31 54 (.searching 0))]
    index := [(197, 5), (212, 200), (232, 40), (385, 1), (386, 3), (414, 300), (415, 310)], free := [7], queue := [300, 5]
    units := [(0, unit 310 0 0), (1, unit 1 0 0), (2, unit 40 3 9), (3, unit 3 0 0)]
    profiles := tset 0 { profile0 with inUse := 7 } State.reset.profiles }

theorem test_resetHighway :
    let t := after (.resetHighway 3) resetting
    reply t = some (.ok, [3, 1]) ∧ t.ctxs.map (·.1) = [1, 3, 300, 310] ∧ t.free = [7, 50, 51, 52] ∧ t.queue = [] ∧
    (tget 2 t.units).map (·.ctx) = some 300 ∧ (t.profile 0).inUse = 4 ∧ t.hwKinds = [] ∧
    (t.slotAt 192).hist = [] ∧ (t.slotAt 256).hist = [1] := by decide +kernel

theorem test_resetStamp :
    reply (after .resetStamp { State.reset with stamp := 9, stampUnit := 4, blockCounter := 0x01020304 }) =
      some (.ok, [0, 0, 4, 1, 2, 3, 4]) := by decide +kernel

/-- 12.9: what is pending before the first fetch. -/
def noticed : State :=
  let n : NoticeGroup :=
    { kinds := 36, detail := some (.main .track .acquire 500), lost := true, routing := routingPowerOn }
  { part rec0 with ctxs := [(23, { rec0 with id := { rec0.id with hw := 5, slot := 17 }, notes := n })], hwKinds := [(5, 1)] }

theorem test_fetchNotice :
    reply (after .fetchNotice noticed) = some (.ok, [1, 5, 1]) ∧
    reply (after .fetchNotice (after .fetchNotice noticed)) = some (.ok, [2, 0, 23, 5, 17, 0, 0x24, 5, 3, 2, 0x01, 0xF4]) ∧
    (after .fetchNotice (after .fetchNotice noticed)).resp.map (·.overrun) = some true ∧
    reply (after .fetchNotice (after .fetchNotice (after .fetchNotice noticed))) = some (.ok, []) := by decide +kernel

/-- 12.9: the cut of context 23 under KEEP, ALERT_A PULSED: one pulse owed, the detail record kept, the lost flag set. -/
theorem test_notices_keep :
    let n : NoticeGroup := { kinds := 4, detail := some (.main .track .acquire 500), lost := false, routing := routingPowerOn }
    let k := { settingsPowerOn with modeA := .pulsed, policy := .keep }
    let t := after (.cut 0) { part { rec0 with notes := n } with due := [.cut 0], settings := k, inForce := k, stamp := 520 }
    (t.rec? 0).map (·.notes) = some { n with kinds := 36, lost := true } ∧ t.lineA.owed = 1 ∧ t.lineB.owed = 0 ∧
    (after (.frame [] [] []) t).lineB.asserted = true ∧ (after (.frame [] [] []) t).lineA = { asserted := true, owed := 0 } := by
  decide +kernel

/-! ### Witnesses: queue, frames, lines, sync -/

theorem witness_StepTakesFront : State.reset.pending = [] := rfl

theorem witness_PowerOn : (0 < 16 ∧ 15 < 16) ∧ Kind.slow ∈ [Kind.slow, .searchFailed, .warned, .restored, .tone, .level] := by decide

/-- The four cases of an entering sample: highway OFF, LOST, LOCKED with the slot unbound, LOCKED with its record at work. -/
theorem witness_FrameMovesSamples :
    0 < (part rec0).slots.length ∧ 1022 + 1 < 1024 ∧ (atFrame { part rec0 with sync := [] }).enabled (0 / 64) = false ∧
    ((atFrame { part rec0 with sync := [(0, lost)] }).enabled (0 / 64) = true ∧
      (atFrame { part rec0 with sync := [(0, { lost with good := 3 })] }).locked (0 / 64) = false) ∧
    ((atFrame { part rec0 with ctxs := [], index := [] }).locked (0 / 64) = true ∧
      tget 0 (atFrame { part rec0 with ctxs := [], index := [] }).index = none) ∧
    (atFrame (part rec0)).locked (0 / 64) = true ∧ tget 0 (atFrame (part rec0)).index = some 0 ∧
      ∃ r ∈ (atFrame (part rec0)).rec? 0, r.blk.started = true := by decide +kernel

theorem witness_InFlightSamplesKept :
    (∀ a b c, Instr.hold 0 0 ≠ .frame a b c) ∧ Instr.hold 0 0 ≠ .powerOn ∧ (∀ h, Instr.hold 0 0 ≠ .resetHighway h) ∧
    (∀ h bytes bits, Instr.hold 0 0 = .commandMessage bytes bits → decodeMessage bytes ≠ .ok (.resetHighway h)) ∧
    takes (.hold 0 0) (part rec0) (after (.hold 0 0) (part rec0)) ∧
    (∀ h, decodeMessage [0x15, 0x00, 0xEA] ≠ .ok (.resetHighway h)) ∧
    takes (.commandMessage [0x15, 0x00, 0xEA] 0) (part rec0) (after (.commandMessage [0x15, 0x00, 0xEA] 0) (part rec0)) := by
  refine ⟨by simp, by simp, by simp, by simp, rfl, ?_, rfl⟩
  intro h
  rw [show decodeMessage [0x15, 0x00, 0xEA] = .ok .readPool by decide]
  simp

/-- A worked frame of a slot at the last position of its highway's numbers; the first frame of a block; a step that is no FRAME. -/
theorem witness_WorkedFrame :
    takes (.frame [3000] [1500] []) midBlock (after (.frame [3000] [1500] []) midBlock) ∧
    (∃ r ∈ (atFrame midBlock).rec? 0, r.blk.started = true ∧ (atFrame midBlock).locked r.id.hw = true ∧ r.id.slot < 64 ∧
      position r.id.hw r.id.slot < midBlock.slots.length ∧ (∀ m ∈ r.blk.model, 16 * m.1 + m.2.length ≤ 1024)) ∧
    tget (position 0 0) (atFrame midBlock).index = some 0 ∧
    (closeFrame (part rec0)).phase = 0 ∧ (closeFrame (part rec0)).rec? 0 = some rec0 ∧ (closeFrame midBlock).phase ≠ 0 ∧
    (closeFrame (part rec0)).rec? 383 = none ∧
    (∀ a b d, Instr.hold 0 0 ≠ .frame a b d) ∧ takes (.hold 0 0) midBlock (after (.hold 0 0) midBlock) ∧
    (midBlock.rec? 0).isSome = true ∧ ((after (.hold 0 0) midBlock).rec? 0).isSome = true :=
  ⟨rfl, by decide +kernel, by decide +kernel, by decide +kernel, by decide +kernel, by decide +kernel, by decide +kernel, by simp, rfl,
    by decide +kernel, by decide +kernel⟩

/-- 3.5, 4.2: the first frame of a block fixes the windows and coefficients; a later one does not. -/
theorem test_openFrame :
    let s := { part rec0 with pool := [(3, 77 :: List.replicate 15 0)] }
    (((atFrame s).rec? 0).map fun r => r.blk.model.map fun m => (m.1, m.2.length, m.2.getD 48 0)) = some [(0, 128, 77)] ∧
    ((atFrame { s with phase := 1 }).rec? 0).map (·.blk.model) = some [] := by decide +kernel

/-- A record not yet begun and a suspended one, in a frame and at a boundary. -/
theorem witness_SuspendedWork :
    let idle := part { rec0 with blk := { rec0.blk with started := false } }
    let dark := { part rec0 with sync := [(0, { lost with good := 2 })] }
    let held := { part { rec0 with blk := { rec0.blk with worked := false } } with phase := 8 }
    let fresh := { idle with phase := 8 }
    takes (.frame [] [] []) idle (after (.frame [] [] []) idle) ∧ takes (.frame [] [] []) dark (after (.frame [] [] []) dark) ∧
    takes .blockBoundary held (after .blockBoundary held) ∧ takes .blockBoundary fresh (after .blockBoundary fresh) ∧
    (∃ r ∈ (atFrame idle).rec? 0, r.blk.started = false) ∧
    (∃ r ∈ (atFrame dark).rec? 0, r.blk.started = true ∧ (atFrame dark).locked r.id.hw = false) ∧
    (8 ≤ held.phase ∧ rising (settle held).ctxs = true ∧ ∃ r ∈ (settle held).rec? 0, r.blk.started = true ∧ r.blk.worked = false) ∧
    (8 ≤ fresh.phase ∧ rising (settle fresh).ctxs = true ∧ ∃ r ∈ (settle fresh).rec? 0, r.blk.started = false) :=
  ⟨rfl, rfl, rfl, rfl, by decide +kernel, by decide +kernel, by decide +kernel, by decide +kernel⟩

/-- The modes of the lines: LATCHED, newly PULSED, PULSED, merged. -/
theorem witness_AlertLines :
    let p := { settingsPowerOn with modeA := .pulsed, modeB := .pulsed }
    let s : State := { State.reset with settings := p }
    let u : State := { s with inForce := p, lineA := { asserted := false, owed := 1 } }
    (State.reset.settings.modeA = .latched ∧ State.reset.settings.modeB = .latched) ∧
    (s.settings.modeA = .pulsed ∧ s.inForce.modeA = .latched ∧ s.settings.modeB = .pulsed ∧ s.inForce.modeB = .latched) ∧
    (u.settings.modeA = .pulsed ∧ u.inForce.modeA = .pulsed ∧ u.settings.modeB = .pulsed ∧ u.inForce.modeB = .pulsed ∧
      u.settings.merge = false) ∧
    ({ u with settings := { p with merge := true } } : State).settings.merge = true ∧
    u.inForce.merge = false := by decide +kernel

theorem witness_ComfortNoise : (1#16 ≠ 0 ∧ 0xFFFF#16 ≠ 0 ∧ 0 < 65535 ∧ 65534 < 65535) ∧ 32767 ≤ 32767 := by decide

theorem witness_CoefficientStep : (1 ≤ 1) ∧ 1 ≤ 32 := by decide

theorem witness_SyncObservations :
    let s := { part rec0 with sync := [(0, locked), (1, failing), (7, seeking)] }
    0 < 8 ∧ 7 < 8 ∧ takes (.frame [] [] []) s (after (.frame [] [] []) s) ∧ tget 2 s.sync = none ∧
    (tget 0 s.sync = some locked ∧ locked.obs = none) ∧ (tget 1 s.sync = some failing ∧ failing.obs = some false) ∧
    (tget 7 s.sync = some seeking ∧ seeking.obs = some true) :=
  ⟨by decide, by decide, rfl, rfl, ⟨rfl, rfl⟩, ⟨rfl, rfl⟩, rfl, rfl⟩

theorem witness_SyncTransitions :
    let s := { part rec0 with sync := [(0, seeking), (1, failing), (7, lost)] }
    (tget 0 s.sync = some seeking ∧ seeking.sync = .seeking ∧ seeking.obs = some true ∧ 7 ≤ seeking.good) ∧
    (tget 1 s.sync = some failing ∧ failing.sync = .locked ∧ failing.obs = some false ∧ 1 ≤ failing.bad) ∧
    (tget 7 s.sync = some lost ∧ lost.sync = .lost ∧ lost.obs = some true ∧ 7 ≤ lost.good) := by decide +kernel

/-! ### Witnesses: the block boundary -/

/-- The block end of 4.9, its record changed. -/
def blockEndOf (f : Record → Record) : State :=
  { blockEnd with ctxs := blockEnd.ctxs.map fun e => (e.1, f e.2) }

/-- The hypotheses of `GateDecision`, `ConvergenceMeasures`, `DivergenceJudgment`, `LevelsAndFloor`. -/
theorem witness_GateDecision :
    8 ≤ blockEnd.phase ∧ rising (settle blockEnd).ctxs = true ∧
    ∃ r ∈ (settle blockEnd).rec? 0, r.blk.started = true ∧ r.blk.worked = true := by decide +kernel

theorem witness_ConvergenceMeasures :
    takes .blockBoundary blockEnd (after .blockBoundary blockEnd) ∧ 8 ≤ blockEnd.phase ∧ rising (settle blockEnd).ctxs = true ∧
    ∃ r ∈ (settle blockEnd).rec? 0, r.blk.started = true ∧ r.blk.worked = true := ⟨rfl, by decide +kernel⟩

theorem witness_DivergenceJudgment :
    takes .blockBoundary blockEnd (after .blockBoundary blockEnd) ∧ 8 ≤ blockEnd.phase ∧ rising (settle blockEnd).ctxs = true ∧
    ∃ r ∈ (settle blockEnd).rec? 0, r.blk.started = true ∧ r.blk.worked = true ∧ divFits r = true := ⟨rfl, by decide +kernel⟩

theorem witness_LevelsAndFloor :
    takes .blockBoundary blockEnd (after .blockBoundary blockEnd) ∧ 8 ≤ blockEnd.phase ∧ rising (settle blockEnd).ctxs = true ∧
    ∃ r ∈ (settle blockEnd).rec? 0, r.blk.started = true ∧ r.blk.worked = true := ⟨rfl, by decide +kernel⟩

/-- A worked record in its ninth and tenth block of the tone window, and one that enters WARNED, its route to a PULSED line. -/
theorem witness_WorkedBlockFrame :
    let tenth := blockEndOf fun r => { r with tone := { r.tone with blocks := 9 } }
    let bad := { blockEndOf fun r => { r with
        div := { count := 95, band := .sound, quiet := 0 }, blk := { r.blk with resid := List.replicate 8 0x7FFF } } with
      inForce := { settingsPowerOn with modeA := .pulsed } }
    (∀ s ∈ [blockEnd, tenth, bad], 8 ≤ s.phase ∧ rising (settle s).ctxs = true ∧ (settle s).rec? 1 = none ∧
      ∃ r ∈ (settle s).rec? 0, r.blk.started = true ∧ r.blk.worked = true) ∧
    takes .blockBoundary blockEnd (after .blockBoundary blockEnd) ∧
    takes .blockBoundary tenth (after .blockBoundary tenth) ∧ takes .blockBoundary bad (after .blockBoundary bad) ∧
    DueEvent.windowEnd 0 ∈ (after .blockBoundary tenth).due ∧ DueEvent.windowEnd 0 ∉ (after .blockBoundary blockEnd).due ∧
    ((after .blockBoundary bad).rec? 0).map (fun r => r.div.band) = some .warned ∧ (after .blockBoundary bad).lineA.owed = 1 :=
  ⟨by decide +kernel, rfl, rfl, rfl, by decide +kernel, by decide +kernel, by decide +kernel, by decide +kernel⟩

/-- A candidate that is selected, in URGENCY and in INDEX mode; a record that is none; an order with two candidates. -/
theorem witness_Selection :
    let s := { blockEnd with sched := .index, pointer := 383 }
    let h := blockEndOf fun r => { r with main := .held }
    (8 ≤ blockEnd.phase ∧ rising (settle blockEnd).ctxs = true ∧ blockEnd.sched = .urgency) ∧
    (∃ r ∈ (settle blockEnd).rec? 0, walkOrder (settle blockEnd).sched (settle blockEnd).pointer (settle blockEnd).candidates =
        [] ++ (0, r) :: [] ∧ (0, r) ∈ (settle blockEnd).candidates ∧ 16 * r.segCount ≤ 49152) ∧
    (((settle blockEnd).candidates.map fun e => 16 * e.2.segCount).sum ≤ 49152) ∧
    (8 ≤ s.phase ∧ rising (settle s).ctxs = true ∧ s.sched = .index ∧ (settle s).selection = [] ++ [0]) ∧
    (8 ≤ h.phase ∧ rising (settle h).ctxs = true ∧ (settle h).candidates = [] ∧ (settle h).selection = [] ∧
      ((settle h).rec? 0).isSome = true) ∧
    rising [(3, sized .track 4 0), (5, sized .acquire 4 16)] = true ∧
    walkOrder .urgency 4 [(3, sized .track 4 0), (5, sized .acquire 4 16)] =
      [] ++ (5, sized .acquire 4 16) :: [] ++ (3, sized .track 4 0) :: [] ∧
    walkOrder .index 4 [(3, sized .track 4 0), (5, sized .acquire 4 16)] =
      [] ++ (5, sized .acquire 4 16) :: [] ++ (3, sized .track 4 0) :: [] := by decide +kernel

theorem blockEnd_segments : segmentsSafe (settle blockEnd) := by
  rw [settle_of_due_nil rfl]
  exact segmentsSafe_of _ 8 rfl (by dsimp only [blockEnd, full, partOf]) (by decide +kernel)

/-- A record selected; one not selected, its block suspended after three worked frames. -/
theorem witness_CoefficientUpdate :
    let dark := blockEndOf fun r => { r with blk := { r.blk with worked := false, resid := r.blk.resid.take 3 } }
    8 ≤ blockEnd.phase ∧ segmentsSafe (settle blockEnd) ∧ poolWf (settle blockEnd).pool = true ∧
    (0 ∈ (settle blockEnd).selection ∧
      ∃ r ∈ (settle blockEnd).rec? 0, r.blk.resid.length = 8 ∧ r.wins.first ∈ r.wins.list ∧ r.wins.first.segs[7]? = some 7 ∧ 15 < 16) ∧
    8 ≤ dark.phase ∧ segmentsSafe (settle dark) ∧ poolWf (settle dark).pool = true ∧ 0 ∉ (settle dark).selection ∧
    ∃ r ∈ (settle dark).rec? 0, r.blk.resid.length = 3 ∧ r.wins.first ∈ r.wins.list ∧ r.wins.first.segs[7]? = some 7 := by
  refine ⟨by decide +kernel, blockEnd_segments, by decide +kernel, by decide +kernel, by decide +kernel, ?_, by decide +kernel,
    by decide +kernel, by decide +kernel⟩
  rw [settle_of_due_nil rfl]
  exact segmentsSafe_of _ 8 rfl (by dsimp only [blockEndOf, blockEnd, full, partOf]) (by decide +kernel)

theorem witness_StampCounter :
    (8 ≤ blockEnd.phase ∧ blockEnd.stampUnit ≤ (settle blockEnd).prescale + 1) ∧
    ¬({ blockEnd with stampUnit := 2 } : State).stampUnit ≤ (settle { blockEnd with stampUnit := 2 }).prescale + 1 ∧
    DueEvent.stampAdvance ∈ ({ State.reset with due := [.stampAdvance] } : State).due := by decide +kernel

/-- Events not due; a FRAME in a block and one after its eighth frame; highways whose observations bring SYNC_LOST and SYNC_BACK. -/
theorem witness_EventsInTime :
    let s := { midBlock with sync := [(0, locked), (1, failing), (7, lost)] }
    let t := after (.frame [] [] []) s
    (DueEvent.convergence 0 ∉ (part rec0).due ∧ DueEvent.level 0 .tx ∉ (part rec0).due ∧ DueEvent.stampAdvance ∉ (part rec0).due) ∧
    (s.phase < 8 ∧ tget 2 s.sync = none ∧ tget 0 s.sync = some locked) ∧ 8 ≤ blockEnd.phase ∧
    (tget 1 s.sync = some failing ∧ 1 < 8 ∧ failing.sync = .locked ∧ failing.obs = some false ∧ 1 ≤ failing.bad ∧ t.hwPending 1 = 1) ∧
    (tget 7 s.sync = some lost ∧ 7 < 8 ∧ lost.sync = .lost ∧ lost.obs = some true ∧ 7 ≤ lost.good ∧ t.hwPending 7 = 2) ∧
    (t.phase = 2 ∧ (after (.frame [] [] []) blockEnd).phase = 1 ∧ (after (.frame [] [] []) blockEnd).due = [] ∧
      (after .blockBoundary blockEnd).due ≠ []) := by decide +kernel

/-- Settling takes the events that are due by their rows, in order, and then the entry that the window end has made due. -/
theorem test_settle_rows :
    let d : ToneDir := { rec0.tone.rx with acc1 := 40000, acc2 := 4000, energy := 40000000, run := 29 }
    let s := { part { rec0 with tone := { rec0.tone with rx := d, blocks := 9 } } with due := [.windowEnd 0, .stampAdvance] }
    settle s = ([DueEvent.windowEnd 0, .stampAdvance, .toneEntry 0].map rowOf).foldl (fun t i => after i t) s ∧
    ((settle s).rec? 0).map (·.tone.sub) = some .nlpOff ∧ (settle s).stamp = 1 := by decide +kernel

/-- Rows not due: a transition for a highway in another state, one without an observation, one of too few; a unit not at its end, before
and after the boundary, and none at all. -/
theorem witness_EventsInTime_rows :
    let s := { part rec0 with sync := [(0, locked), (1, failing), (7, { lost with good := 6 })], units := [(1, unit 0 63 511)] }
    let b := { blockEndOf (fun r => { r with link := .searching 1 }) with units := [(1, { unit 0 64 9 with begun := false })] }
    (tget 2 s.sync = none ∧ failing.sync ≠ .seeking ∧ locked.obs ≠ some false ∧ ¬7 ≤ ({ lost with good := 6 } : Highway).good) ∧
    (s.phase < 8 ∧ tget 0 (settle s).units = none ∧ ∃ un ∈ tget 1 (settle s).units, ¬64 ≤ un.qual ∧ ¬512 ≤ un.blocks) ∧
    (8 ≤ b.phase ∧ ∃ un ∈ tget 1 (settle b).units, un.begun = false ∧ 64 ≤ un.qual) := by decide +kernel

/-! ### Witnesses: events -/

/-- The part with one event due. -/
def due (e : DueEvent) (r : Record) : State := { part r with due := [e] }

theorem witness_ConvergenceAndExpiryEvents :
    let o := { rec0 with main := .observe }
    let x := fun n => { rec0 with conv := { rec0.conv with expiry := n } }
    (DueEvent.convergence 0 ∈ (due (.convergence 0) rec0).due ∧ (due (.convergence 0) rec0).rec? 0 = some rec0 ∧ rec0.main = .acquire) ∧
    (DueEvent.convergence 0 ∈ (due (.convergence 0) o).due ∧ (due (.convergence 0) o).rec? 0 = some o ∧ o.main = .observe) ∧
    (∀ n, n < 3 → DueEvent.expiry 0 ∈ (due (.expiry 0) (x n)).due ∧ (due (.expiry 0) (x n)).rec? 0 = some (x n) ∧
      (x n).main = .acquire ∧ (x n).conv.expiry = n) ∧
    ((due (.expiry 0) { rec0 with main := .track }).rec? 0).map (·.main) = some .track ∧
    ((due (.expiry 0) { rec0 with main := .held }).rec? 0).map (·.main) = some .held := by decide +kernel

/-- The cases of a request for a search: a search already there, an idle unit, none idle. -/
theorem witness_requested :
    let busy : State := { part rec0 with units := [(0, unit 1 0 0), (1, unit 2 0 0), (2, unit 3 0 0), (3, unit 4 0 0)] }
    let three : State := { part rec0 with units := [(0, unit 1 0 0), (1, unit 2 0 0), (2, unit 3 0 0)] }
    ({ rec0 with link := .queued } : Record).link ≠ .none ∧ rec0.link = .none ∧
    (3 < 4 ∧ tget 3 three.units = none ∧ ∀ v, v < 3 → tget v three.units ≠ none) ∧ ∀ u, u < 4 → tget u busy.units ≠ none := by
  decide +kernel

/-- The recovery modes; the three links of a record that is cut. -/
theorem witness_CutEvent :
    let q := { rec0 with main := .track, link := .searching 1 }
    let s := { due (.cut 0) q with units := [(1, unit 0 3 9)] }
    let k := withProfile (fun f => { f with recovery := .holdAtCut }) (due (.cut 0) rec0)
    (searchSafe s = true ∧ DueEvent.cut 0 ∈ s.due ∧ s.rec? 0 = some q ∧ q.main = .track) ∧
    (searchSafe k = true ∧ DueEvent.cut 0 ∈ k.due ∧ k.rec? 0 = some rec0 ∧ rec0.main = .acquire) := by decide +kernel

theorem witness_RecoveryEvent :
    let r := { rec0 with main := .cut }
    let s := fun m => withProfile (fun f => { f with recovery := m }) (due (.recovery 0) r)
    ∀ m ∈ [RecoveryMode.auto, .holdAfter, .stay, .holdAtCut],
      DueEvent.recovery 0 ∈ (s m).due ∧ (s m).rec? 0 = some r ∧ r.main = .cut ∧ r.link = .none ∧
      ((s m).profileOf r).recovery = m := by decide +kernel

theorem witness_LevelAndFloorEvents :
    (due (.level 0 .rx) rec0).rec? 0 = some rec0 ∧ DueEvent.level 0 .rx ∈ (due (.level 0 .rx) rec0).due ∧
    DueEvent.level 0 .tx ∈ (due (.level 0 .tx) rec0).due ∧ DueEvent.noiseFloorRise 0 ∈ (due (.noiseFloorRise 0) rec0).due := by
  decide +kernel

theorem witness_WindowEnd :
    let s := due (.windowEnd 0) rec0
    DueEvent.windowEnd 0 ∈ s.due ∧ s.rec? 0 = some rec0 ∧ (s.profileOf rec0).toneEnable = true := by decide +kernel

theorem witness_ToneSubStates :
    let b := { rec0 with tone := { rec0.tone with sub := .bypass } }
    let off := fun r => withProfile (fun f => { f with toneEnable := false }) (due (.windowEnd 0) r)
    ((due (.toneEntry 0) rec0).rec? 0 = some rec0 ∧ DueEvent.toneEntry 0 ∈ (due (.toneEntry 0) rec0).due ∧ rec0.tone.sub = .none) ∧
    ((due (.release 0) b).rec? 0 = some b ∧ DueEvent.release 0 ∈ (due (.release 0) b).due ∧ b.tone.sub ≠ .none) ∧
    ((off b).rec? 0 = some b ∧ DueEvent.windowEnd 0 ∈ (off b).due ∧ ((off b).profileOf b).toneEnable = false) ∧
    (off rec0).rec? 0 = some rec0 := by decide +kernel

/-! ### Witnesses: searches -/

/-- The frame of 4.7 with a search at work; and block ends: one that the boundary begins, one at work, one in a suspended block. -/
theorem witness_ShadowFilter :
    let f := { midBlock with units := [(2, unit 0 3 9)] }
    let b := fun (begun worked : Bool) => {
      blockEndOf fun r => { r with blk := { r.blk with worked := worked } } with
      units := [(2, { unit 0 3 9 with begun := begun, resid := if begun && worked then List.replicate 8 1 else [] })] }
    takes (.frame [0] [9] []) f (after (.frame [0] [9] []) f) ∧
    (∀ x y, takes .blockBoundary (b x y) (after .blockBoundary (b x y))) ∧
    (∃ un ∈ tget 2 (atFrame f).units, un.span ≤ 64 ∧ ∃ r ∈ (atFrame f).rec? un.ctx, position r.id.hw r.id.slot < f.slots.length) ∧
    (∀ x y, 8 ≤ (b x y).phase ∧ rising (settle (b x y)).ctxs = true ∧
      ∃ un ∈ tget 2 (settle (b x y)).units, un.begun = x ∧ (un.resid = if x && y then List.replicate 8 1 else []) ∧
        ((settle (b x y)).rec? un.ctx).map (fun r => (r.blk.started, r.blk.worked, r.tone.sub)) = some (true, y, .none) ∧
        un.shadow.length = 1024 ∧ un.span ≤ 64) ∧
    ((after .blockBoundary (b true true)).rec? 0).map (·.gate.state) = some .far ∧
    ((tget 2 (after .blockBoundary (b true false)).units).map fun v => (v.qual, v.blocks)) = some (3, 10) ∧
    ((tget 2 (after .blockBoundary (b true true)).units).map fun v => (v.qual, v.blocks)) = some (4, 10) :=
  ⟨rfl, fun _ _ => rfl, by decide +kernel, by decide +kernel, by decide +kernel, by decide +kernel, by decide +kernel⟩

/-- Over a span of four with windows of one segment: no energy at 2^20; a peak without a second; a peak and an accepted second. -/
theorem witness_Evaluation :
    let shadow := fun a c : Nat => (BitVec.ofNat 16 a :: List.replicate 31 0) ++ (BitVec.ofNat 16 c :: List.replicate 31 0)
    let en := fun (a c p : Nat) => ((List.range 16).map fun j => ((shadow a c).getD (16 * p + j) 0).toInt.natAbs ^ 2).sum
    let b := { profile0.bindTime with w0 := 1, w1 := 1 }
    (1 ≤ 4 ∧ 4 ≤ 64 ∧ 1 ≤ b.w0 ∧ 1 ≤ b.w1 ∧ b.twoWindows = true) ∧ (∀ p, p < 4 → en 1023 0 p < 1048576) ∧
    ((∀ q, q < 4 → en 1024 511 q ≤ en 1024 511 0) ∧ 1048576 ≤ en 1024 511 0 ∧
      ∀ q, q < 4 → 0 + 2 ≤ q → 4 * en 1024 511 q < en 1024 511 0) ∧
    ((∀ q, q < 4 → en 1024 512 q ≤ en 1024 512 0) ∧ (∀ q, q < 4 → 0 + 2 ≤ q → en 1024 512 q ≤ en 1024 512 2) ∧
      en 1024 512 0 ≤ 4 * en 1024 512 2) := by decide +kernel

/-- A completed search with the shadow filter `sh`, whose record `r` holds the pool's first segments. -/
def completed (r : Record) (sh : List Coeff) : State :=
  { full { r with link := .searching 1 } with units := [(1, { unit 0 64 70 with shadow := sh })] }

theorem completed_segments (r : Record) (sh : List Coeff) (h : r.wins = rec0.wins) : segmentsSafe (settle (completed r sh)) := by
  rw [settle_of_due_nil rfl]
  refine segmentsSafe_of _ 8 rfl (by dsimp only [completed, full, partOf]) ?_
  show r.wins.segs ++ [] = _
  rw [h]
  decide +kernel

/-- The results of a search: ECHO_FREE; windows that move, in TRACK and in ACQUIRE; windows that do not. -/
theorem witness_SearchCompletion :
    let w := fun sh => evaluate profile0.bindTime sh 32
    (∀ m sh, segmentsSafe (settle (completed { rec0 with main := m } sh))) ∧
    (∀ sh ∈ [shadowOf [(3, 1023)], shadowOf [(3, 3000)], shadowOf [(1, 3000)]], ∀ m ∈ [MainState.track, .acquire],
      searchSafe (settle (completed { rec0 with main := m } sh)) = true ∧ ¬8 ≤ (completed { rec0 with main := m } sh).phase ∧
      ∃ un ∈ tget 1 (settle (completed { rec0 with main := m } sh)).units, 64 ≤ un.qual ∧
        ((settle (completed { rec0 with main := m } sh)).rec? un.ctx).isSome = true) ∧
    w (shadowOf [(3, 1023)]) = none ∧ w (shadowOf [(3, 3000)]) = some ((2, 8), none) ∧
    w (shadowOf [(1, 3000)]) = some ((0, 8), none) ∧ rec0.wins.list.map (fun x => (x.base, x.limit)) = [(0, 7)] := by
  refine ⟨?_, by decide +kernel, by decide +kernel, by decide +kernel, by decide +kernel, by decide +kernel⟩
  exact fun _ sh => completed_segments _ sh rfl

/-- A completion before the boundary is taken, in the 64th qualifying block. -/
theorem witness_SearchCompletion_boundary :
    let s := { blockEndOf (fun r => { r with link := .searching 1 }) with
      units := [(1, { unit 0 63 70 with resid := List.replicate 8 0 })] }
    searchSafe (settle s) = true ∧ 8 ≤ s.phase ∧
    ∃ un ∈ tget 1 (settle s).units, un.begun = true ∧ 64 ≤ ((settle s).unitEnd un).qual := by decide +kernel

theorem witness_SearchFailure :
    let s := { part { rec0 with link := .searching 1 } with units := [(1, unit 0 63 512)] }
    let b := { s with phase := 8, units := [(1, unit 0 62 511)] }
    (searchSafe (settle s) = true ∧ ¬8 ≤ s.phase ∧ ∃ un ∈ tget 1 (settle s).units, 512 ≤ un.blocks ∧ un.qual < 64 ∧
      ((settle s).rec? un.ctx).isSome = true) ∧
    (searchSafe (settle b) = true ∧ 8 ≤ b.phase ∧ ∃ un ∈ tget 1 (settle b).units, un.begun = true ∧
      512 ≤ ((settle b).unitEnd un).blocks ∧ ((settle b).unitEnd un).qual < 64) := by decide +kernel

/-! ### Witnesses: control link -/

theorem witness_MessageRoundTrip :
    wellFormed (.writeTaps 7 63 1 63 (List.replicate 16 0x8000)) = true ∧
    (encodeMessage (.writeTaps 7 63 1 63 (List.replicate 16 0x8000))).isSome = true ∧
    wellFormed (.setProfile 15 edit3) = true ∧ (encodeMessage (.setProfile 15 edit3)).isSome = true ∧
    wellFormed .fetchNotice = true ∧ encodeMessage .fetchNotice = some [0x34, 0x00, 0xCB] ∧
    (List.replicate 16 0x8000#16).length = 16 ∧ (profileLayout 3 edit3).length = 48 ∧ (List.replicate 48 0xFF#8).length = 48 := by
  decide +kernel

/-- R190: the SET PROFILE body byte by byte, and its message read back, the ignored bits of bytes 4 and 45 being set. -/
theorem test_profileLayout :
    let level : LevelMsg := { target := 0x1718, gmin := 0x191A, gmax := 0x1B1C, g0 := 0x1D1E }
    let f : ProfileMsg := {
      selHw := 5, hwMask := 6, selSlot := 0x02, slotMask := 0x03, matchEnable := true, twoWindows := false, searchAtBind := true
      toneEnable := false, span := 0x05, b0 := 0x06, w0 := 0x07, w1 := 0x08, minSeg := 0x09, muAcq := 0x0A, muTrack := 0x0B
      delta := 0x0C0D0E0F, tFar := 0x1011, tNear := 0x1213, nlp := 1, rxMode := 0, txMode := 1, recovery := 2
      rx := level, tx := { level with target := 0x1F20 }, wMin := 0x25262728, wRel := 0x292A2B2C, routing := 0x12E2F }
    let body : List Byte := [9, 0x65, 2, 3, 0x05, 5, 6, 7, 8, 9, 10, 11, 0x0C, 0x0D, 0x0E, 0x0F, 0x10, 0x11, 0x12, 0x13, 0x91,
      0x17, 0x18, 0x19, 0x1A, 0x1B, 0x1C, 0x1D, 0x1E, 0x1F, 0x20, 0x19, 0x1A, 0x1B, 0x1C, 0x1D, 0x1E,
      0x25, 0x26, 0x27, 0x28, 0x29, 0x2A, 0x2B, 0x2C, 0x01, 0x2E, 0x2F]
    profileLayout 9 f = body ∧
    decodeMessage (message 0x20 ((body.set 4 0xF5).set 45 0xFD)) = .ok (.setProfile 9 f) := by decide +kernel

/-- A length above 48; a body cut short; a wrong check byte; an unknown code; a wrong length; a good message, with a byte after it. -/
theorem witness_LinkChecks :
    let sum := fun (l : List Byte) => (l.map fun b => b.toNat).sum % 256
    0x15#8 ≠ 0x80#8 ∧ 48 < (49#8).toNat ∧ ((48#8).toNat ≤ 48 ∧ [0x20#8, 48#8].length < (48#8).toNat + 3) ∧
    ((0#8).toNat + 3 ≤ [0x15#8, 0#8, 0xEB#8].length ∧ sum [0x15, 0, 0xEB] ≠ 255) ∧
    (sum [0x09, 0, 0xF6] = 255 ∧ tget (0x09#8).toNat bodyLengths = none) ∧
    (sum [0x15, 1, 0, 0xE9] = 255 ∧ tget (0x15#8).toNat bodyLengths = some 0 ∧ (1#8).toNat ≠ 0) ∧
    (sum ([0x15, 0, 0xEA, 7].take 3) = 255 ∧ tget (0x15#8).toNat bodyLengths = some (0#8).toNat) := by decide

theorem witness_Refusals :
    (encodeMessage (.retire 8 0)).isSome = true ∧ (8 ≤ (8#8).toNat) ∧ 64 ≤ (64#8).toNat ∧
    ((7#8).toNat < 8 ∧ (63#8).toNat < 64 ∧ tget (64 * (7#8).toNat + (63#8).toNat) (settle (part rec0)).index = none) ∧
    (15#8).toNat < 16 := by decide +kernel

/-! ### Witnesses: circuit records -/

/-- 1.8: AUTO and a short grant; and a full grant of profile 0 by number, to context 1, with the search asked for and not. -/
theorem witness_BindAccepted :
    let fits := fun (g : Profile) (hw slot : Byte) =>
      g.matchEnable = true ∧ (∀ i, i < 8 → g.hwMask.getLsbD i = true → hw.getLsbD i = g.selHw.getLsbD i) ∧
        ∀ i, i < 8 → g.slotMask.getLsbD i = true → slot.getLsbD i = g.selSlot.getLsbD i
    let v := settle pressed
    let w := settle (partOf rec0 (List.range' 8 8))
    (v.enabled (5#8).toNat = true ∧ tget (64 * (5#8).toNat + (17#8).toNat) v.index = none ∧ fits (v.profile 2) 5 17 ∧
      (∀ q, q < 2 → ¬fits (v.profile q) 5 17) ∧ v.rec? 23 = none ∧ (∀ d, d < 23 → v.rec? d ≠ none) ∧
      profileFits (v.profile 2) = true ∧ (v.profile 2).bindTime.minSeg ≤ v.free.length ∧ ¬12 ≤ v.free.length) ∧
    (w.enabled (0#8).toNat = true ∧ tget (64 * (0#8).toNat + (63#8).toNat) w.index = none ∧ w.rec? 1 = none ∧
      (∀ d, d < 1 → w.rec? d ≠ none) ∧ profileFits (w.profile 0) = true ∧ 8 ≤ w.free.length) ∧
    (w.profile 0).bindTime.searchAtBind = true ∧ (0#8).getLsbD 1 = false ∧ (2#8).getLsbD 1 = true := by decide +kernel

/-- A key out of range and a profile number that names none; a highway OFF; a bound key; no profile; no segments; no context. -/
theorem witness_BindRefused :
    let fits := fun (g : Profile) (hw slot : Byte) =>
      g.matchEnable = true ∧ (∀ i, i < 8 → g.hwMask.getLsbD i = true → hw.getLsbD i = g.selHw.getLsbD i) ∧
        ∀ i, i < 8 → g.slotMask.getLsbD i = true → slot.getLsbD i = g.selSlot.getLsbD i
    let w := settle (part rec0)
    let n := settle (withProfile (fun f => { f with matchEnable := false }) (part rec0))
    let few := settle (partOf rec0 [8, 9, 10])
    let many := settle { part rec0 with ctxs := (List.range 384).map fun c => (c, rec0) }
    ¬((16#8).toNat < 16 ∨ 16#8 = 0xFF#8) ∧ w.enabled (1#8).toNat = false ∧
    (w.enabled (0#8).toNat = true ∧ tget (64 * (0#8).toNat + (0#8).toNat) w.index ≠ none) ∧
    (n.enabled 0 = true ∧ tget 1 n.index = none ∧ ∀ p, p < 16 → ¬fits (n.profile p) 0 1) ∧
    (tget 1 few.index = none ∧ few.free.length < min (few.profile 0).bindTime.w0 (few.profile 0).bindTime.span ∧
      few.free.length < (few.profile 0).bindTime.minSeg) ∧
    (tget 1 many.index = none ∧ many.ctxs.map (·.1) = List.range 384) := by decide +kernel

/-- The key (0, 0) of the part is held by context 0. -/
theorem holds_part (r : Record) (free : List Nat) : holdsKey (settle (partOf r free)) 0 0 0 r := by
  rw [settle_of_due_nil rfl]
  exact ⟨by decide, by decide, rfl, rfl⟩

/-- A record with no search, one queued, and one searching while another waits. -/
def waiting (l : SearchLink) (m : MainState) : State :=
  match l with
  | .none => part { rec0 with main := m }
  | .queued =>
    { part rec0 with
      ctxs := [(0, { rec0 with main := m, link := .queued }), (1, { rec0 with link := .searching 0 }), (2, { rec0 with link := .searching 1 }),
        (3, { rec0 with link := .searching 2 }), (4, { rec0 with link := .searching 3 })]
      queue := [0], units := [(0, unit 1 0 0), (1, unit 2 0 0), (2, unit 3 0 0), (3, unit 4 0 0)] }
  | .searching _ =>
    { part rec0 with
      ctxs := [(0, { rec0 with main := m, link := .searching 0 }), (1, { rec0 with link := .queued }), (2, { rec0 with link := .searching 1 }),
        (3, { rec0 with link := .searching 2 }), (4, { rec0 with link := .searching 3 })]
      queue := [1], units := [(0, unit 0 0 0), (1, unit 2 0 0), (2, unit 3 0 0), (3, unit 4 0 0)] }

/-- Each link of the record, with queue and units in agreement; used by `Retire`, `Hold`, `AmendSpan`, `AmendWindows`. -/
theorem witness_links :
    (∀ l ∈ [SearchLink.none, .queued, .searching 0],
      searchSafe (settle (waiting l .track)) = true ∧
      ∃ r ∈ (settle (waiting l .track)).rec? 0, r.link = l ∧ tget 0 (settle (waiting l .track)).index = some 0) ∧
    (settle (waiting (.searching 0) .track)).queue = 1 :: [] := by decide +kernel

theorem witness_Retire :
    holdsKey (settle (part rec0)) 0 0 0 rec0 ∧ searchSafe (settle (part rec0)) = true ∧ indexSafe (settle (part rec0)) = true :=
  ⟨holds_part _ _, by decide +kernel, by decide +kernel⟩

/-- OBSERVE with and without observe-converged; HELD with and without converged-once, and at 255 and 256. -/
theorem witness_EngageAndResume :
    let conv := fun b => { rec0.conv with observeConverged := b, convergedOnce := b }
    (∀ b m n, holdsKey (settle (part { rec0 with main := m, conv := conv b, div := { rec0.div with count := n } })) 0 0 0
      { rec0 with main := m, conv := conv b, div := { rec0.div with count := n } }) ∧
    (∀ b, (conv b).observeConverged = b ∧ (conv b).convergedOnce = b) ∧ MainState.acquire ≠ .observe ∧ 255 < 256 ∧ 256 ≤ 256 :=
  ⟨fun _ _ _ => holds_part _ _, by decide, by decide, by decide, by decide⟩

theorem witness_Hold :
    (holdsKey (settle (part { rec0 with main := .held })) 0 0 0 { rec0 with main := .held } ∧
      searchSafe (settle (part { rec0 with main := .held })) = true) ∧
    (holdsKey (settle (part rec0)) 0 0 0 rec0 ∧ searchSafe (settle (part rec0)) = true ∧ rec0.main ≠ .held) :=
  ⟨⟨holds_part _ _, by decide +kernel⟩, holds_part _ _, by decide +kernel, by decide⟩

theorem witness_RestoreAndSearch :
    (∀ m, holdsKey (settle (part { rec0 with main := m })) 0 0 0 { rec0 with main := m }) ∧ rec0.link = .none ∧ rec0.main = .acquire ∧
    ((settle (waiting .queued .track)).rec? 0).map (fun r => (r.main, r.link)) = some (.track, .queued) :=
  ⟨fun _ => holds_part _ _, rfl, rfl, by decide +kernel⟩

theorem full_segments (r : Record) (h : r.wins = rec0.wins) : segmentsSafe (settle (full r)) := by
  rw [settle_of_due_nil rfl]
  refine segmentsSafe_of _ 8 rfl (by dsimp only [full, partOf]) ?_
  show r.wins.segs ++ [] = _
  rw [h]
  decide +kernel

theorem witness_QueryAndReadPool : holdsKey (settle (full rec0)) 0 0 0 rec0 ∧ segmentsSafe (settle (full rec0)) :=
  ⟨holds_part _ _, full_segments _ rfl⟩

/-! ### Witnesses: segments -/

/-- Spans of 0, of the first base, just above it, and above 64, over a record whose first window begins at 9. -/
theorem witness_AmendSpan :
    let w : Windows :=
      { first := { base := 9, limit := 10, segs := [0, 1] }, second := some { base := 12, limit := 13, segs := [2, 3] }
        shortened := false }
    holdsKey (settle (part { rec0 with wins := w })) 0 0 0 { rec0 with wins := w } ∧
    searchSafe (settle (part { rec0 with wins := w })) = true ∧ windowsFit rec0.id.span w = true ∧ min (0#8).toNat 64 = 0 ∧
    min (9#8).toNat 64 ≤ w.first.base ∧ w.first.base < min (10#8).toNat 64 ∧ w.first.base < min (255#8).toNat 64 ∧
    (rec0.main ≠ .held ∧ rec0.main ≠ .cut ∧ rec0.link = .none) :=
  ⟨holds_part _ _, by decide +kernel, by decide, by decide, by decide, by decide, by decide, by decide, by decide, by decide⟩

/-- A span just exceeded and just met; windows that meet and that adjoin; too few segments and just enough; each main state. -/
theorem witness_AmendWindows :
    (∀ m, holdsKey (settle (full { rec0 with main := m })) 0 0 0 { rec0 with main := m } ∧
      segmentsSafe (settle (full { rec0 with main := m })) ∧ poolWf (settle (full { rec0 with main := m })).pool = true) ∧
    searchSafe (settle (full rec0)) = true ∧ windowsFit rec0.id.span rec0.wins = true ∧ rec0.id.span ≤ 64 ∧
    ¬(25#8).toNat + (8#8).toNat ≤ rec0.id.span ∧ ((24#8).toNat + (8#8).toNat ≤ rec0.id.span ∧ 1 ≤ (8#8).toNat) ∧
    ¬(0#8).toNat + (8#8).toNat - 1 < (7#8).toNat ∧ (0#8).toNat + (8#8).toNat - 1 < (8#8).toNat ∧
    (settle (part rec0)).free.length + rec0.segCount = (8#8).toNat + (4#8).toNat := by
  refine ⟨fun m => ⟨holds_part _ _, full_segments _ rfl, ?_⟩, by decide +kernel, by decide +kernel, by decide, by decide, by decide,
    by decide, by decide, by decide +kernel⟩
  rw [settle_of_due_nil rfl]
  rfl

/-- The first and the last position of the first window; no second window; a window operand of 2. -/
theorem witness_ReadAndWriteTaps :
    (∀ m, holdsKey (settle (part { rec0 with main := m })) 0 0 0 { rec0 with main := m }) ∧ (List.replicate 16 (1 : Coeff)).length = 16 ∧
    rec0.wins.first.segs[(0#8).toNat]? = some 0 ∧ rec0.wins.first.segs[(7#8).toNat]? = some 7 ∧
    rec0.wins.first.segs[(8#8).toNat]? = none ∧ rec0.wins.second = none ∧ ¬((2#8).toNat = 0 ∨ (2#8).toNat = 1) :=
  ⟨fun _ => holds_part _ _, by decide, by decide, by decide, by decide, by decide, by decide⟩

/-! ### Witnesses: profiles, settings, notices -/

/-- 11.4: a refused selector; gain limits crossed by one and equal; a bind-time change in use; the same fields. -/
theorem witness_SetProfile :
    let w := settle edited
    (16 ≤ (16#8).toNat ∧ (8#4).toNat = 8 ∧ (3#2).toNat = 3 ∧ (2#2).toNat = 2) ∧
    (min (2001#16).toNat 32767 > min (2000#16).toNat 32767) ∧
    ((3#8).toNat < 16 ∧ edit3.selHw.toNat < 8 ∧ edit3.hwMask.toNat < 8 ∧ edit3.selSlot.toNat < 64 ∧ edit3.slotMask.toNat < 64 ∧
      edit3.nlp.toNat < 3 ∧ edit3.rxMode.toNat < 2 ∧ edit3.txMode.toNat < 2 ∧
      min edit3.rx.gmin.toNat 32767 ≤ min edit3.rx.gmax.toNat 32767 ∧ min edit3.tx.gmin.toNat 32767 ≤ min edit3.tx.gmax.toNat 32767) ∧
    (w.profile 3).inUse ≠ 0 ∧ storedBind edit3 = (w.profile 3).bindTime ∧
    storedBind { edit3 with w0 := 12 } ≠ (w.profile 3).bindTime ∧ (w.profile 4).inUse = 0 := by decide +kernel

theorem witness_ReadAndAmendProfile :
    (16 ≤ (16#8).toNat ∧ (15#8).toNat < 16) ∧ profileFits ((settle edited).profile 15) = true ∧
    holdsKey (settle (part rec0)) 0 0 0 rec0 ∧ rec0.id.profile = (0#8).toNat ∧ rec0.id.profile ≠ (15#8).toNat :=
  ⟨by decide, by decide +kernel, holds_part _ _, rfl, by decide⟩

/-- Settings that name none; a bound highway disabled, and kept. -/
theorem witness_ConfigureAndReadConfig :
    let w := settle (part rec0)
    ¬((2#8).toNat = 0 ∨ (2#8).toNat = 1) ∧ ¬((3#8).toNat = 1 ∨ (3#8).toNat = 2 ∨ (3#8).toNat = 4 ∨ (3#8).toNat = 8) ∧
    ((1#8).toNat = 1 ∧ (8#8).toNat = 8) ∧
    (∃ r ∈ w.rec? 0, w.enabled r.id.hw = true ∧ (0xFE#8).getLsbD r.id.hw = false) ∧
    (∀ e ∈ w.ctxs, (0x01#8).getLsbD e.2.id.hw = true) := by decide +kernel

theorem witness_ResetHighway :
    indexSafe (settle resetting) = true ∧ searchSafe (settle resetting) = true ∧ usesSafe (settle resetting) = true ∧
    8 ≤ (8#8).toNat ∧ (3#8).toNat < 8 ∧
    (∃ r ∈ (settle resetting).rec? 40, r.id.hw = (3#8).toNat) ∧ (∃ r ∈ (settle resetting).rec? 300, r.id.hw ≠ (3#8).toNat) ∧
    (settle resetting).rec? 0 = none ∧ 256 < (settle resetting).slots.length ∧
    (let w := settle resetting
     let lies := fun c => (w.rec? c).any fun r => r.id.hw = (3#8).toNat
     w.units.countP (fun e => lies e.2.ctx) = 1 ∧ w.queue.filter (fun c => !lies c) = [300] ∧
     (∃ un ∈ tget 2 w.units, lies un.ctx = true) ∧ (∃ un ∈ tget 0 w.units, lies un.ctx = false) ∧ tget 4 w.units = none ∧
     ∃ r ∈ w.rec? 310, r.id.hw ≠ 3 ∧ 310 ∉ [300]) := by decide +kernel

/-- A pending highway; none pending but a context; nothing pending. -/
theorem witness_FetchNotice :
    let u := settle { noticed with hwKinds := [] }
    (rising (settle noticed).ctxs = true ∧ 5 < 8 ∧ (settle noticed).hwPending 5 ≠ 0 ∧ ∀ k, k < 5 → (settle noticed).hwPending k = 0) ∧
    (rising u.ctxs = true ∧ (∀ h, h < 8 → u.hwPending h = 0) ∧ (∃ r ∈ u.rec? 23, r.notes.kinds ≠ 0) ∧ ∀ d, d < 23 → u.rec? d = none) ∧
    ((∀ h, h < 8 → (settle (part rec0)).hwPending h = 0) ∧
      ∀ e ∈ (settle (part rec0)).ctxs, e.2.notes.kinds = 0 ∧ e.2.notes.detail = none ∧ e.2.notes.lost = false) := by decide +kernel

/-! ### Witnesses: what every step keeps -/

/-- A part at work, with all its 512 slot positions: a searching record whose block ends, its message waiting. -/
def busy : State :=
  { blockEndOf (fun r => { r with link := .searching 1 }) with
    slots := { slotPowerOn with hist := (blockEnd.slotAt 0).hist } :: List.replicate 511 slotPowerOn
    units := [(1, { unit 0 63 70 with resid := List.replicate 8 0 })], pending := [.blockBoundary, .hold 0 0] }

theorem witness_steps : step busy = .next (after .blockBoundary { busy with pending := [.hold 0 0] }) := rfl

theorem witness_SegmentsKept : segmentsSafe busy :=
  segmentsSafe_of _ 8 rfl (by dsimp only [busy, blockEndOf, blockEnd, full, partOf]) (by decide +kernel)

/-- The invariants that the statements take as premises. -/
theorem witness_invariants :
    tablesRise busy = true ∧ indexSafe busy = true ∧ poolWf busy.pool = true ∧ windowsSafe busy = true ∧ searchSafe busy = true ∧
    divSafe busy = true ∧ rangesSafe busy = true ∧ profilesSafe busy = true ∧ usesSafe busy = true ∧ gainsSafe busy = true ∧
    syncSafe busy = true ∧ timeSafe busy = true ∧ slotsSafe busy = true ∧ linesSafe busy = true ∧ blockSafe busy = true := by
  decide +kernel

theorem witness_IndexKept :
    Instr.hold 0 0 ≠ .powerOn ∧ takes (.hold 0 0) (part rec0) (after (.hold 0 0) (part rec0)) ∧
    (part rec0).rec? 0 = some rec0 ∧ ((after (.hold 0 0) (part rec0)).rec? 0).isSome = true :=
  ⟨by simp, rfl, rfl, by decide +kernel⟩

end Sys2Proof.Tests
end

/-! PROOFS. The segment pool: what every operation keeps of the free list and of the windows (R27 to R29), and from it that every
step keeps each segment in one place. -/

namespace Sys2Proof.TapSegments

open Sys2Proof Sys2Proof.Machine

/-! ### Tables -/

section
variable {α β : Type}

theorem tget_eq_some_iff_mem {k : Nat} {v : α} {m : List (Nat × α)} (hr : rising m = true) :
    tget k m = some v ↔ (k, v) ∈ m :=
  ⟨mem_of_tget, tget_of_mem hr⟩

theorem pairwise_of_rising {m : List (Nat × α)} (hr : rising m = true) : m.Pairwise fun d e => d.1 < e.1 := by
  induction m with
  | nil => exact .nil
  | cons d t ih => exact .cons (rising_cons.1 hr).1 (ih (rising_cons.1 hr).2)

/-- A rising table is known by what its numbers give. -/
theorem rising_ext {m n : List (Nat × α)} (hm : rising m = true) (hn : rising n = true)
    (h : ∀ k, tget k m = tget k n) : m = n := by
  have hmem : ∀ e, e ∈ m ↔ e ∈ n := fun e => by
    rw [← tget_eq_some_iff_mem (k := e.1) hm, h, tget_eq_some_iff_mem hn]
  have nodup : ∀ {l : List (Nat × α)}, rising l = true → l.Nodup := fun hl =>
    (pairwise_of_rising hl).imp fun hlt he => by simp [he] at hlt
  have hperm : m.Perm n := (List.perm_ext_iff_of_nodup (nodup hm) (nodup hn)).2 hmem
  refine hperm.eq_of_pairwise ?_ (pairwise_of_rising hm) (pairwise_of_rising hn)
  intro a b _ _ hab hba
  omega

theorem tset_of_tget {k : Nat} {v : α} {m : List (Nat × α)} (hr : rising m = true) (h : tget k m = some v) :
    tset k v m = m := by
  refine rising_ext (rising_tset hr) hr fun j => ?_
  by_cases hj : j = k
  · rw [hj, tget_tset_same, h]
  · rw [tget_tset_other hj]

theorem tdel_of_forall_ne {k : Nat} {m : List (Nat × α)} (h : ∀ e ∈ m, e.1 ≠ k) : tdel k m = m :=
  List.filter_eq_self.2 fun e he => by simpa using h e he

theorem tget_map_key (f : Nat → α → β) (k : Nat) (m : List (Nat × α)) :
    tget k (m.map fun e => (e.1, f e.1 e.2)) = (tget k m).map (f k) := by
  induction m with
  | nil => rfl
  | cons e t ih =>
    simp only [List.map_cons, tget]
    split
    · next h => rw [h]; rfl
    · exact ih

/-- What a table's entries list together, with one entry made anew. -/
theorem flatMap_tset_perm (f : α → List β) (k : Nat) (v : α) {m : List (Nat × α)} (hr : rising m = true) :
    ((tset k v m).flatMap fun e => f e.2).Perm (f v ++ (tdel k m).flatMap fun e => f e.2) := by
  induction m with
  | nil => simp [tset, tdel]
  | cons d t ih =>
    obtain ⟨j, w⟩ := d
    obtain ⟨hlt, ht⟩ := rising_cons.1 hr
    simp only [tset]
    split
    · next hk =>
      rw [tdel_of_forall_ne]
      · rfl
      · intro e he
        rcases List.mem_cons.1 he with rfl | he
        · exact Nat.ne_of_gt hk
        · exact Nat.ne_of_gt (Nat.lt_trans hk (hlt e he))
    · split
      · next _ hj =>
        subst hj
        have : tdel j ((j, w) :: t) = tdel j t := by simp [tdel]
        rw [this, tdel_of_forall_ne fun e he => Nat.ne_of_gt (hlt e he)]
        rfl
      · next _ hj =>
        have : tdel k ((j, w) :: t) = (j, w) :: tdel k t := by simp [tdel, hj]
        rw [this, List.flatMap_cons, List.flatMap_cons]
        refine ((ih ht).append_left _).trans ?_
        rw [← List.append_assoc, ← List.append_assoc]
        exact List.perm_append_comm.append_right _

/-- What a table's entries list together, one entry apart. -/
theorem flatMap_perm_tdel (f : α → List β) {k : Nat} {v : α} {m : List (Nat × α)} (hr : rising m = true)
    (h : tget k m = some v) : (m.flatMap fun e => f e.2).Perm (f v ++ (tdel k m).flatMap fun e => f e.2) := by
  have := flatMap_tset_perm f k v hr
  rwa [tset_of_tget hr h] at this

theorem tdel_of_tget_none {k : Nat} {m : List (Nat × α)} (hr : rising m = true) (h : tget k m = none) : tdel k m = m :=
  tdel_of_forall_ne fun e he hk => by
    have := tget_of_mem (k := e.1) (v := e.2) hr he
    rw [hk, h] at this
    cases this

end

/-! ### Operations that leave the free list and the windows alone -/

/-- From `s` to `t` the free list, the bound contexts and their windows are the same. -/
structure KeepsWindows (s t : State) : Prop where
  rises : rising s.ctxs = true → rising t.ctxs = true
  free : t.free = s.free
  wins : ∀ c, (t.rec? c).map (·.wins) = (s.rec? c).map (·.wins)

namespace KeepsWindows

theorem refl (s : State) : KeepsWindows s s := ⟨id, rfl, fun _ => rfl⟩

theorem trans {s t u : State} (h : KeepsWindows s t) (k : KeepsWindows t u) : KeepsWindows s u :=
  ⟨k.rises ∘ h.rises, k.free.trans h.free, fun c => (k.wins c).trans (h.wins c)⟩

theorem of_eq {s t : State} (hc : t.ctxs = s.ctxs) (hf : t.free = s.free) : KeepsWindows s t :=
  ⟨by rw [hc]; exact id, hf, fun c => by rw [rec?_congr hc]⟩

theorem setRec {s : State} {c : Nat} {r q : Record} (h : s.rec? c = some r) (hp : q.wins = r.wins) :
    KeepsWindows s (s.setRec c q) := by
  refine ⟨rising_tset, rfl, fun d => ?_⟩
  by_cases hd : d = c
  · subst hd; simp [h, hp]
  · rw [rec?_setRec_other hd]

/-- One record made anew, its windows kept, beside changes of other parts of the state. -/
theorem of_tset {s t : State} {c : Nat} {r q : Record} (h : s.rec? c = some r) (hc : t.ctxs = tset c q s.ctxs)
    (hp : q.wins = r.wins) (hf : t.free = s.free) : KeepsWindows s t :=
  (setRec h hp).trans (of_eq hc hf)

theorem modRec {f : Record → Record} (hf : ∀ r, (f r).wins = r.wins) (c : Nat) (s : State) :
    KeepsWindows s (s.modRec c f) := by
  rcases modRec_cases c f s with ⟨_, h⟩ | ⟨r, hr, h⟩ <;> rw [h]
  · exact refl s
  · exact setRec hr (hf r)

/-- Every record made anew, its windows kept. -/
theorem of_map {s t : State} (f : Nat → Record → Record) (hf : ∀ c r, (f c r).wins = r.wins)
    (hc : t.ctxs = s.ctxs.map fun e => (e.1, f e.1 e.2)) (hfree : t.free = s.free) : KeepsWindows s t := by
  refine ⟨fun h => by rw [hc]; exact rising_map f h, hfree, fun c => ?_⟩
  rw [State.rec?, hc, tget_map_key, Option.map_map]
  exact congrArg (Option.map · (s.rec? c)) (funext (hf c))

theorem foldl {α : Type} {f : State → α → State} (hf : ∀ t a, KeepsWindows t (f t a)) (l : List α) (s : State) :
    KeepsWindows s (l.foldl f s) := by
  induction l generalizing s with
  | nil => exact refl s
  | cons a l ih => exact (hf s a).trans (ih _)

end KeepsWindows

theorem keepsWindows_raise (k : Kind) (c : Nat) (s : State) : KeepsWindows s (raise k c s) := by
  rcases raise_cases k c s with ⟨_, h⟩ | ⟨r, hr, ⟨_, h⟩ | ⟨_, h⟩⟩ <;> rw [h]
  · exact .refl s
  · exact .refl s
  · exact .of_tset hr rfl rfl rfl

theorem keepsWindows_writeDetail (c : Nat) (d : Detail) (s : State) : KeepsWindows s (writeDetail c d s) :=
  .modRec (by intro _; rfl) c s

theorem keepsWindows_setLink (l : SearchLink) (c : Nat) (s : State) : KeepsWindows s (setLink l c s) :=
  .modRec (by intro _; rfl) c s

theorem keepsWindows_startSearch (u c : Nat) (b : Bool) (s : State) : KeepsWindows s (startSearch u c b s) := by
  rcases startSearch_cases u c b s with ⟨_, h⟩ | ⟨r, hr, h⟩ <;> rw [h]
  · exact .refl s
  · exact .of_tset hr rfl rfl rfl

theorem keepsWindows_freeUnit (u : Nat) (b : Bool) (s : State) : KeepsWindows s (freeUnit u b s) := by
  have hdel : KeepsWindows s { s with units := tdel u s.units } := .of_eq rfl rfl
  rcases freeUnit_cases u b s with ⟨_, h⟩ | ⟨c, _, _, h⟩ <;> rw [h]
  · exact hdel
  · exact hdel.trans (keepsWindows_startSearch ..)

theorem keepsWindows_endSearch (c : Nat) (b : Bool) (s : State) : KeepsWindows s (endSearch c b s) := by
  rcases endSearch_cases c b s with ⟨_, h⟩ | ⟨r, _, ⟨_, h⟩ | ⟨_, h⟩ | ⟨u, _, h⟩⟩ <;> rw [h]
  · exact .refl s
  · exact .refl s
  · exact (keepsWindows_setLink .none c s).trans (.of_eq rfl rfl)
  · exact (keepsWindows_setLink .none c s).trans (keepsWindows_freeUnit ..)

theorem keepsWindows_requestSearch (c : Nat) (b : Bool) (s : State) : KeepsWindows s (requestSearch c b s) := by
  rcases requestSearch_cases c b s with h | ⟨r, _, _, _, ⟨u, _, h⟩ | ⟨_, h⟩⟩ <;> rw [h]
  · exact .refl s
  · exact keepsWindows_startSearch u c b s
  · exact (keepsWindows_setLink .queued c s).trans (.of_eq rfl rfl)

theorem keepsWindows_changeMain (m : MainState) (c : Nat) (b : Bool) (s : State) : KeepsWindows s (changeMain m c b s) := by
  rcases changeMain_cases m c b s with ⟨_, h⟩ | ⟨r, hr, ⟨_, h⟩ | ⟨_, h⟩⟩ <;> rw [h]
  · exact .refl s
  · exact .refl s
  · have hset : KeepsWindows s (s.setRec c (enterMain m r)) := .setRec hr rfl
    refine KeepsWindows.trans ?_ (keepsWindows_writeDetail ..)
    split
    · exact hset
    · exact hset.trans (keepsWindows_endSearch ..)

theorem keepsWindows_changeTone (x : ToneSub) (c : Nat) (s : State) : KeepsWindows s (changeTone x c s) := by
  unfold changeTone
  cases hr : s.rec? c with
  | none => exact .refl s
  | some r =>
    have hset : KeepsWindows s (s.setRec c { r with tone := { r.tone with sub := x, release := 0 } }) := .setRec hr rfl
    exact (hset.trans (keepsWindows_raise ..)).trans (keepsWindows_writeDetail ..)

theorem keepsWindows_relocationEffects (c : Nat) (w : Windows) (b : Bool) (s : State) :
    KeepsWindows s (relocationEffects c w b s) := by
  unfold relocationEffects
  cases hr : s.rec? c with
  | none => exact .refl s
  | some r =>
    dsimp only
    split
    · exact .refl s
    · cases r.main with
      | acquire => exact .setRec hr rfl
      | observe => exact .setRec hr rfl
      | track => exact keepsWindows_changeMain ..
      | held => exact .refl s
      | cut => exact .refl s

/-! ### The events of a boundary leave them alone -/

theorem keepsWindows_takeConvergence (c : Nat) (s : State) : KeepsWindows s (takeConvergence c s) := by
  unfold takeConvergence
  cases hr : s.rec? c with
  | none => exact .refl s
  | some r =>
    dsimp only
    cases r.main with
    | acquire => exact (keepsWindows_changeMain ..).trans (keepsWindows_raise ..)
    | observe => exact .setRec hr rfl
    | track | held | cut => exact .refl s

theorem keepsWindows_takeExpiry (c : Nat) (s : State) : KeepsWindows s (takeExpiry c s) := by
  unfold takeExpiry
  cases hr : s.rec? c with
  | none => exact .refl s
  | some r =>
    have hset : ∀ n, KeepsWindows s (s.setRec c { r with conv := { r.conv with deadline := 0, expiry := n } }) := fun n =>
      .setRec hr rfl
    dsimp only
    split
    · split
      · exact ((hset 1).trans (keepsWindows_raise ..)).trans (keepsWindows_requestSearch ..)
      · exact (hset 2).trans (keepsWindows_raise ..)
      · exact .setRec hr rfl
    · exact .refl s

theorem keepsWindows_takeCut (c : Nat) (s : State) : KeepsWindows s (takeCut c s) := by
  unfold takeCut
  cases hr : s.rec? c with
  | none => exact .refl s
  | some r =>
    have hset : KeepsWindows s { s.setRec c (cutFields r) with pool := zeroWindows s.pool r.wins } :=
      .of_tset hr rfl rfl rfl
    dsimp only
    split
    · exact (hset.trans (keepsWindows_changeMain ..)).trans (keepsWindows_raise ..)
    · exact .refl s

theorem keepsWindows_takeRecovery (c : Nat) (s : State) : KeepsWindows s (takeRecovery c s) := by
  unfold takeRecovery
  cases hr : s.rec? c with
  | none => exact .refl s
  | some r =>
    have hset : KeepsWindows s (s.setRec c { r with div := soundGroup }) := .setRec hr rfl
    dsimp only
    split
    · cases (s.profileOf r).recovery with
      | auto =>
        refine KeepsWindows.trans ?_ (keepsWindows_raise ..)
        exact (hset.trans (keepsWindows_changeMain ..)).trans (keepsWindows_requestSearch ..)
      | holdAfter => exact (hset.trans (keepsWindows_changeMain ..)).trans (keepsWindows_raise ..)
      | stay | holdAtCut => exact .refl s
    · exact .refl s

theorem keepsWindows_takeLevel (c : Nat) (d : Dir) (s : State) : KeepsWindows s (takeLevel c d s) :=
  (KeepsWindows.modRec (fun _ => by cases d <;> rfl) c s).trans (keepsWindows_raise ..)

theorem keepsWindows_windowEndOff {c : Nat} {r : Record} {s : State} (hr : s.rec? c = some r) :
    KeepsWindows s (windowEndOff c r s) := by
  unfold windowEndOff
  split
  · exact .setRec hr rfl
  · refine KeepsWindows.trans ?_ (keepsWindows_changeTone ..)
    exact .setRec hr rfl

theorem keepsWindows_countRelease (p : Profile) {c : Nat} {r : Record} {s : State} (hr : s.rec? c = some r) (x : ToneGroup) :
    KeepsWindows s (windowEndOn.countRelease p c r s x) := by
  unfold windowEndOn.countRelease
  generalize (if quietWindow p.wRel r.tone = true then min 25 (x.release + 1) else 0) = n
  dsimp only
  split
  · exact .of_tset hr rfl rfl rfl
  · exact .setRec hr rfl

theorem keepsWindows_windowEndOn (p : Profile) {c : Nat} {r : Record} {s : State} (hr : s.rec? c = some r) :
    KeepsWindows s (windowEndOn p c r s) := by
  unfold windowEndOn
  have hset : ∀ x, KeepsWindows s (s.setRec c { r with tone := x }) := fun x => .setRec hr rfl
  cases r.tone.sub with
  | none =>
    dsimp only
    split
    · exact (hset _).trans (.of_eq rfl rfl)
    · exact hset _
  | nlpOff =>
    dsimp only
    split
    · exact (hset _).trans (keepsWindows_changeTone ..)
    · exact keepsWindows_countRelease p hr _
  | bypass => exact keepsWindows_countRelease p hr _

theorem keepsWindows_takeWindowEnd (c : Nat) (s : State) : KeepsWindows s (takeWindowEnd c s) := by
  unfold takeWindowEnd
  cases hr : s.rec? c with
  | none => exact .refl s
  | some r =>
    dsimp only
    split
    · exact keepsWindows_windowEndOn _ hr
    · exact keepsWindows_windowEndOff hr

theorem keepsWindows_takeToneEntry (c : Nat) (s : State) : KeepsWindows s (takeToneEntry c s) := by
  unfold takeToneEntry
  cases s.rec? c with
  | none => exact .refl s
  | some r =>
    dsimp only
    split
    · exact keepsWindows_changeTone ..
    · exact .refl s

theorem keepsWindows_takeRelease (c : Nat) (s : State) : KeepsWindows s (takeRelease c s) := by
  unfold takeRelease
  cases hr : s.rec? c with
  | none => exact .refl s
  | some r =>
    dsimp only
    split
    · exact .refl s
    · refine KeepsWindows.trans ?_ (keepsWindows_changeTone ..)
      exact .setRec hr rfl

theorem keepsWindows_takeEvent (e : DueEvent) (s : State) : KeepsWindows s (takeEvent e s) := by
  cases e with
  | convergence c => exact keepsWindows_takeConvergence c s
  | expiry c => exact keepsWindows_takeExpiry c s
  | cut c => exact keepsWindows_takeCut c s
  | recovery c => exact keepsWindows_takeRecovery c s
  | level c d => exact keepsWindows_takeLevel c d s
  | noiseFloorRise c => exact .modRec (by intro _; rfl) c s
  | stampAdvance => exact .of_eq rfl rfl
  | windowEnd c => exact keepsWindows_takeWindowEnd c s
  | toneEntry c => exact keepsWindows_takeToneEntry c s
  | release c => exact keepsWindows_takeRelease c s

theorem keepsWindows_settle (s : State) : KeepsWindows s (settle s) :=
  settle_induction (P := KeepsWindows s) (fun _ h => h.trans (.of_eq rfl rfl))
    (fun e t h => h.trans (keepsWindows_takeEvent e t)) (.refl s)

theorem keepsWindows_takeDue (e : DueEvent) (s : State) : KeepsWindows s (takeDue e s) := by
  unfold takeDue
  split
  · exact (KeepsWindows.of_eq rfl rfl : KeepsWindows s { s with due := s.due.erase e }).trans (keepsWindows_takeEvent ..)
  · exact .refl s

/-! ### The boundary and the sync transitions leave them alone -/

theorem recordEnd_wins (p : Profile) (h : List Sample) (r : Record) : (recordEnd p h r).wins = r.wins := by
  unfold recordEnd
  split
  · rfl
  · split <;> rfl

theorem keepsWindows_blockBoundary (s : State) : KeepsWindows s (blockBoundary s) := by
  refine KeepsWindows.trans ?_ (KeepsWindows.foldl (fun t c => keepsWindows_raise .warned c t) _ _)
  exact .of_map (s.boundaryRecord s.selection) (fun c r => recordEnd_wins ..) rfl rfl

theorem keepsWindows_lockHighway (h : Nat) (y : Highway) (s : State) : KeepsWindows s (lockHighway h y s) := .of_eq rfl rfl

theorem keepsWindows_loseHighway (h : Nat) (y : Highway) (s : State) : KeepsWindows s (loseHighway h y s) :=
  .of_eq (by simp [loseHighway]) (by simp [loseHighway])

theorem keepsWindows_returnHighway (h : Nat) (y : Highway) (s : State) : KeepsWindows s (returnHighway h y s) :=
  .of_eq (by simp [returnHighway]) (by simp [returnHighway])

theorem keepsWindows_makeObs (s : State) (h : Nat) : KeepsWindows s (makeObs s h) := by
  unfold makeObs
  cases tget h s.sync with
  | none => exact .refl s
  | some y =>
    dsimp only
    cases y.obs with
    | none => exact .refl s
    | some g =>
      dsimp only
      split
      · exact keepsWindows_lockHighway ..
      · split
        · exact keepsWindows_loseHighway ..
        · split
          · exact keepsWindows_returnHighway ..
          · exact .of_eq rfl rfl

theorem keepsWindows_takeSync (brings : Highway → Bool) {act : Nat → Highway → State → State}
    (hact : ∀ h y s, KeepsWindows s (act h y s)) (h : Nat) (s : State) : KeepsWindows s (takeSync brings act h s) := by
  unfold takeSync
  cases tget h s.sync with
  | none => exact .refl s
  | some y =>
    dsimp only
    split
    · exact hact h y s
    · exact .refl s

theorem keepsWindows_failSearch (u : Nat) (un : SearchUnit) (b : Bool) (s : State) : KeepsWindows s (failSearch u un b s) :=
  ((keepsWindows_raise ..).trans (keepsWindows_setLink ..)).trans (keepsWindows_freeUnit ..)

end Sys2Proof.TapSegments


namespace Sys2Proof.TapSegments

open Sys2Proof Sys2Proof.Machine

/-! ### Operations that move segments between the free list and the windows (R28, R29) -/

/-- From `s` to `t` the same segments are on the free list and in the windows together (R27). -/
structure KeepsSegments (s t : State) : Prop where
  kept : rising s.ctxs = true → rising t.ctxs = true ∧ (t.free ++ t.heldSegs).Perm (s.free ++ s.heldSegs)

theorem segmentsSafe_of_keepsSegments {s t : State} (h : KeepsSegments s t) (hs : segmentsSafe s) : segmentsSafe t :=
  have ⟨hr, hp⟩ := hs
  have ⟨hr', hp'⟩ := h.kept hr
  ⟨hr', hp'.trans hp⟩

/-- Where each record's windows are kept, so are the segments held. -/
theorem heldSegs_of_wins {s t : State} (hs : rising s.ctxs = true) (ht : rising t.ctxs = true)
    (h : ∀ c, (t.rec? c).map (·.wins) = (s.rec? c).map (·.wins)) : t.heldSegs = s.heldSegs := by
  have hmap : (t.ctxs.map fun e => (e.1, e.2.wins)) = s.ctxs.map fun e => (e.1, e.2.wins) :=
    rising_ext (rising_map (fun _ r => r.wins) ht) (rising_map (fun _ r => r.wins) hs) fun k =>
      (tget_map (fun r : Record => r.wins) k t.ctxs).trans ((h k).trans (tget_map (fun r : Record => r.wins) k s.ctxs).symm)
  have hflat : ∀ u : State, u.heldSegs = (u.ctxs.map fun e => (e.1, e.2.wins)).flatMap fun e => e.2.segs := fun u => by
    rw [List.flatMap_map]; rfl
  rw [hflat, hflat, hmap]

theorem KeepsWindows.keepsSegments {s t : State} (h : KeepsWindows s t) : KeepsSegments s t :=
  ⟨fun hr => ⟨h.rises hr, by rw [h.free, heldSegs_of_wins hr (h.rises hr) h.wins]⟩⟩

namespace KeepsSegments

theorem refl (s : State) : KeepsSegments s s := ⟨fun hr => ⟨hr, .refl _⟩⟩

theorem of_eq {s t : State} (hc : t.ctxs = s.ctxs) (hf : t.free = s.free) : KeepsSegments s t :=
  (KeepsWindows.of_eq hc hf).keepsSegments

theorem trans {s t u : State} (h : KeepsSegments s t) (k : KeepsSegments t u) : KeepsSegments s u :=
  ⟨fun hr =>
    have ⟨hr', hp⟩ := h.kept hr
    have ⟨hr'', hp'⟩ := k.kept hr'
    ⟨hr'', hp'.trans hp⟩⟩

theorem foldl {α : Type} {f : State → α → State} (hf : ∀ t a, KeepsSegments t (f t a)) (l : List α) (s : State) :
    KeepsSegments s (l.foldl f s) := by
  induction l generalizing s with
  | nil => exact refl s
  | cons a l ih => exact (hf s a).trans (ih _)

/-- One context's record made anew: what its windows lose and gain goes to and comes from the free list. `old` are the segments
that the context held before. -/
theorem of_tset {s t : State} {c : Nat} {q : Record} {old : List Nat} (hc : t.ctxs = tset c q s.ctxs)
    (hold : rising s.ctxs = true → s.heldSegs.Perm (old ++ (tdel c s.ctxs).flatMap fun e => e.2.wins.segs))
    (hp : (t.free ++ q.wins.segs).Perm (s.free ++ old)) : KeepsSegments s t := by
  refine ⟨fun h => ⟨hc ▸ rising_tset h, ?_⟩⟩
  have hnew : t.heldSegs.Perm (q.wins.segs ++ (tdel c s.ctxs).flatMap fun e => e.2.wins.segs) := by
    rw [State.heldSegs, hc]
    exact flatMap_tset_perm (fun r : Record => r.wins.segs) c q h
  refine (hnew.append_left _).trans (.trans ?_ ((hold h).symm.append_left _))
  rw [← List.append_assoc, ← List.append_assoc]
  exact hp.append_right _

theorem of_bound {s t : State} {c : Nat} {r q : Record} (hr : s.rec? c = some r) (hc : t.ctxs = tset c q s.ctxs)
    (hp : (t.free ++ q.wins.segs).Perm (s.free ++ r.wins.segs)) : KeepsSegments s t :=
  of_tset hc (fun h => flatMap_perm_tdel (fun r : Record => r.wins.segs) h hr) hp

theorem of_vacant {s t : State} {c : Nat} {q : Record} (hr : s.rec? c = none) (hc : t.ctxs = tset c q s.ctxs)
    (hp : (t.free ++ q.wins.segs).Perm s.free) : KeepsSegments s t :=
  of_tset (old := []) hc (fun h => by rw [tdel_of_tget_none h hr]; rfl) (by rwa [List.append_nil])

end KeepsSegments

/-! ### Relocation -/

/-- A relocation whose grant leaves out the second window: `n` segments from the head of the free list
to the first (R32 to R34). -/
theorem relocate_first {s : State} {c n : Nat} {r : Record} {first : Place} {second : Option Place} {short : Bool}
    (hr : s.rec? c = some r) (hg : grant (s.free ++ r.wins.segs).length first second = (n, false, short)) (src : List Coeff) :
    relocate c first second src s =
      { s.setRec c { r with wins :=
          { first := windowAt first.1 ((s.free ++ r.wins.segs).take n), second := none, shortened := short } } with
        free := (s.free ++ r.wins.segs).drop n
        pool := writeRun s.pool ((s.free ++ r.wins.segs).take n) (src.drop (segTaps * first.1)) } := by
  unfold relocate
  rw [hr]
  dsimp only
  rw [hg]
  cases second <;> rfl

/-- A relocation that grants both windows (R32 to R34). -/
theorem relocate_both {s : State} {c n : Nat} {r : Record} {first second : Place} {short : Bool} (hr : s.rec? c = some r)
    (hg : grant (s.free ++ r.wins.segs).length first (some second) = (n, true, short)) (src : List Coeff) :
    relocate c first (some second) src s =
      { s.setRec c { r with wins :=
          { first := windowAt first.1 ((s.free ++ r.wins.segs).take n)
            second := some (windowAt second.1 (((s.free ++ r.wins.segs).drop n).take second.2)), shortened := short } } with
        free := ((s.free ++ r.wins.segs).drop n).drop second.2
        pool := writeRun (writeRun s.pool ((s.free ++ r.wins.segs).take n) (src.drop (segTaps * first.1)))
          (((s.free ++ r.wins.segs).drop n).take second.2) (src.drop (segTaps * second.1)) } := by
  unfold relocate
  rw [hr]
  dsimp only
  rw [hg]

/-- No second window is granted that is not desired. -/
theorem grant_none_keep (f : Nat) (first : Place) : (grant f first none).2.1 = false := by
  unfold grant
  dsimp only
  split <;> rfl

theorem keepsSegments_relocate (c : Nat) (first : Place) (second : Option Place) (src : List Coeff) (s : State) :
    KeepsSegments s (relocate c first second src s) := by
  cases hr : s.rec? c with
  | none => simpa [relocate, hr] using KeepsSegments.refl s
  | some r =>
    rcases hg : grant (s.free ++ r.wins.segs).length first second with ⟨n, keep, short⟩
    cases keep with
    | false =>
      rw [relocate_first hr hg]
      refine .of_bound hr rfl ?_
      show (List.drop n (s.free ++ r.wins.segs) ++ (List.take n (s.free ++ r.wins.segs) ++ [])).Perm (s.free ++ r.wins.segs)
      rw [List.append_nil]
      exact List.perm_append_comm.trans (.of_eq (List.take_append_drop ..))
    | true =>
      cases second with
      | none =>
        have := grant_none_keep (s.free ++ r.wins.segs).length first
        rw [hg] at this
        cases this
      | some w =>
        rw [relocate_both hr hg]
        refine .of_bound hr rfl ?_
        refine List.perm_append_comm.trans (.of_eq ?_)
        show (List.take n (s.free ++ r.wins.segs) ++ ((s.free ++ r.wins.segs).drop n).take w.2) ++
          ((s.free ++ r.wins.segs).drop n).drop w.2 = s.free ++ r.wins.segs
        rw [List.append_assoc, List.take_append_drop, List.take_append_drop]

theorem keepsSegments_handOff (un : SearchUnit) (b : Bool) (s : State) : KeepsSegments s (handOff un b s) := by
  unfold handOff
  cases hr : s.rec? un.ctx with
  | none => exact .refl s
  | some r =>
    dsimp only
    split
    · refine KeepsWindows.keepsSegments (.trans ?_ (keepsWindows_raise ..))
      exact .setRec hr rfl
    · next first second _ =>
      refine (keepsSegments_relocate un.ctx first second un.shadow s).trans (KeepsWindows.keepsSegments ?_)
      refine .trans (.trans ?_ (keepsWindows_relocationEffects ..)) (keepsWindows_raise ..)
      exact .modRec (by intro _; rfl) ..

theorem keepsSegments_completeSearch (u : Nat) (un : SearchUnit) (b : Bool) (s : State) :
    KeepsSegments s (completeSearch u un b s) :=
  (keepsSegments_handOff un b s).trans ((keepsWindows_setLink ..).trans (keepsWindows_freeUnit ..)).keepsSegments

theorem keepsSegments_retire (c : Nat) (s : State) : KeepsSegments s (retire c s) := by
  cases hr : s.rec? c with
  | none => simpa [retire, hr] using KeepsSegments.refl s
  | some r =>
    have hend := keepsWindows_endSearch c false s
    generalize ht : endSearch c false s = t at hend
    obtain ⟨q, hq, hqw⟩ : ∃ q, t.rec? c = some q ∧ q.wins = r.wins := by simpa [hr] using hend.wins c
    refine hend.keepsSegments.trans ?_
    have hctxs : (retire c s).ctxs = tdel c t.ctxs := by simp [retire, hr, ht]
    have hfree : (retire c s).free = t.free ++ q.wins.segs := by simp [retire, hr, ht, hqw]
    refine ⟨fun h => ⟨hctxs ▸ rising_tdel h, ?_⟩⟩
    rw [hfree, State.heldSegs, hctxs, List.append_assoc]
    exact (flatMap_perm_tdel (fun r : Record => r.wins.segs) h hq).symm.append_left _

/-! ### Time -/

theorem keepsSegments_finishUnit (s : State) (u : Nat) : KeepsSegments s (finishUnit s u) := by
  unfold finishUnit
  cases tget u s.units with
  | none => exact .refl s
  | some un =>
    dsimp only
    split
    · exact keepsSegments_completeSearch ..
    · split
      · exact (keepsWindows_failSearch ..).keepsSegments
      · exact .refl s

theorem keepsSegments_closeFrame (s : State) : KeepsSegments s (closeFrame s) := by
  unfold closeFrame
  have hobs : KeepsWindows s ((List.range nHighways).foldl makeObs s) := .foldl keepsWindows_makeObs _ _
  refine KeepsSegments.trans (KeepsWindows.keepsSegments ?_) (.foldl keepsSegments_finishUnit _ _)
  refine KeepsWindows.trans ?_ (keepsWindows_settle _)
  split
  · exact (hobs.trans (keepsWindows_settle _)).trans (keepsWindows_blockBoundary _)
  · exact hobs

theorem keepsSegments_takeSearchEnd (ends : SearchUnit → Bool) {act : Nat → SearchUnit → Bool → State → State}
    (hact : ∀ u un b s, KeepsSegments s (act u un b s)) (u : Nat) (s : State) :
    KeepsSegments s (takeSearchEnd ends act u s) := by
  have h : ∀ un b, KeepsSegments s (act u un b (settle s)) := fun un b =>
    (keepsWindows_settle s).keepsSegments.trans (hact u un b _)
  unfold takeSearchEnd
  dsimp only
  cases tget u (settle s).units with
  | none => exact .refl s
  | some un =>
    dsimp only
    split
    · split
      · exact h _ _
      · exact .refl s
    · split
      · exact h _ _
      · exact .refl s

/-! ### Commands -/

theorem keepsSegments_keyed {hw slot : Byte} {s : State} {f : Nat → Record → State × Reply}
    (hf : ∀ c r, s.rec? c = some r → KeepsSegments s (f c r).1) : KeepsSegments s (keyed hw slot s f).1 := by
  rcases keyed_cases hw slot s f with ⟨_, h⟩ | ⟨_, ⟨_, h⟩ | ⟨c, r, _, hr, h⟩⟩ <;> rw [h]
  · exact .refl s
  · exact .refl s
  · exact hf c r hr

theorem keepsSegments_retireCmd (hw slot : Byte) (s : State) : KeepsSegments s (retireCmd hw slot s).1 :=
  keepsSegments_keyed fun c _ _ => keepsSegments_retire c s

theorem keepsSegments_engageCmd (hw slot : Byte) (s : State) : KeepsSegments s (engageCmd hw slot s).1 :=
  keepsSegments_keyed fun c r _ => by
    split
    · exact (keepsWindows_changeMain ..).keepsSegments
    · exact .refl s

theorem keepsSegments_holdCmd (hw slot : Byte) (s : State) : KeepsSegments s (holdCmd hw slot s).1 :=
  keepsSegments_keyed fun c r hr => by
    split
    · exact .refl s
    · refine KeepsWindows.keepsSegments (.trans ?_ (keepsWindows_changeMain ..))
      exact .setRec hr rfl

theorem keepsSegments_resumeCmd (hw slot : Byte) (s : State) : KeepsSegments s (resumeCmd hw slot s).1 :=
  keepsSegments_keyed fun c r _ => by
    split
    · exact (keepsWindows_changeMain ..).keepsSegments
    · exact .refl s

theorem keepsSegments_restoreCmd (hw slot : Byte) (s : State) : KeepsSegments s (restoreCmd hw slot s).1 :=
  keepsSegments_keyed fun c r _ => by
    split
    · exact .refl s
    · refine KeepsWindows.keepsSegments (.trans ?_ (keepsWindows_requestSearch ..))
      have hclear : ∀ t : State, KeepsWindows t (t.modRec c fun q => { q with div := soundGroup, conv := clearConv }) := fun t =>
        .modRec (by intro _; rfl) c t
      exact ((keepsWindows_changeMain .acquire c false s).trans (hclear _)).trans (.of_eq rfl rfl)

theorem keepsSegments_searchCmd (hw slot : Byte) (s : State) : KeepsSegments s (searchCmd hw slot s).1 :=
  keepsSegments_keyed fun c r _ => by
    split
    · exact .refl s
    · split
      · exact (keepsWindows_requestSearch ..).keepsSegments
      · exact .refl s

theorem keepsWindows_respanSearch (c : Nat) (r : Record) (s : State) : KeepsWindows s (respanSearch c r s) := by
  unfold respanSearch
  split
  · exact .refl s
  · cases r.link with
    | none => exact keepsWindows_requestSearch ..
    | queued => exact .refl s
    | searching u =>
      refine KeepsWindows.trans ?_ (keepsWindows_freeUnit ..)
      exact (keepsWindows_setLink .queued c s).trans (.of_eq rfl rfl)

/-- A clipped window and what the clip takes from it are the window (R40). -/
theorem clipWindow_segs_append (n : Nat) (w : Window) : (clipWindow n w).segs ++ clippedSegs n w = w.segs := by
  unfold clipWindow clippedSegs
  split
  · simp
  · exact List.take_append_drop _ _

theorem clipWindows_segs_perm (n : Nat) (w : Windows) : (clipReturns n w ++ (clipWindows n w).segs).Perm w.segs := by
  have hfirst := clipWindow_segs_append n w.first
  unfold clipReturns clipWindows Windows.segs
  cases w.second with
  | none =>
    simpa using List.perm_append_comm.trans (.of_eq hfirst)
  | some v =>
    dsimp only
    by_cases hv : n ≤ v.base
    · simp only [hv, if_true, List.append_nil]
      calc ((clippedSegs n w.first ++ v.segs) ++ (clipWindow n w.first).segs).Perm
            ((clipWindow n w.first).segs ++ (clippedSegs n w.first ++ v.segs)) := List.perm_append_comm
        _ = w.first.segs ++ v.segs := by rw [← List.append_assoc, hfirst]
    · simp only [hv, if_false]
      rw [← hfirst, ← clipWindow_segs_append n v]
      generalize clippedSegs n w.first = a, clippedSegs n v = b, (clipWindow n w.first).segs = x, (clipWindow n v).segs = y
      rw [List.perm_iff_count]
      intro k
      simp only [List.count_append]
      omega

theorem keepsSegments_amendSpanCmd (hw slot span : Byte) (s : State) : KeepsSegments s (amendSpanCmd hw slot span s).1 :=
  keepsSegments_keyed fun c r hr => by
    dsimp only
    split
    · exact .refl s
    · refine KeepsSegments.trans ?_ (keepsWindows_respanSearch ..).keepsSegments
      refine .of_bound hr rfl ?_
      rw [List.append_assoc]
      exact (clipWindows_segs_perm _ r.wins).append_left _

theorem keepsSegments_amendWindowsAccepted (c : Nat) (r : Record) (first : Place) (second : Option Place) (s : State) :
    KeepsSegments s (amendWindowsAccepted c r first second s) :=
  ((keepsWindows_endSearch c false s).keepsSegments.trans (keepsSegments_relocate ..)).trans
    (keepsWindows_relocationEffects ..).keepsSegments

theorem keepsSegments_amendWindowsCmd (hw slot b1 l1 b2 l2 : Byte) (s : State) :
    KeepsSegments s (amendWindowsCmd hw slot b1 l1 b2 l2 s).1 :=
  keepsSegments_keyed fun c r _ => by
    dsimp only
    split
    · exact .refl s
    · split
      · exact .refl s
      · split
        · exact .refl s
        · split
          · exact .refl s
          · split <;> exact keepsSegments_amendWindowsAccepted ..

theorem keepsSegments_amendProfileCmd (hw slot profile : Byte) (s : State) :
    KeepsSegments s (amendProfileCmd hw slot profile s).1 := by
  unfold amendProfileCmd
  split
  · exact .refl s
  · refine keepsSegments_keyed fun c r hr => ?_
    dsimp only
    split
    · exact .refl s
    · exact KeepsWindows.keepsSegments (.of_tset hr rfl rfl rfl)

theorem keepsSegments_readTapsCmd (hw slot win pos : Byte) (s : State) : KeepsSegments s (readTapsCmd hw slot win pos s).1 :=
  keepsSegments_keyed fun c r _ => by split <;> exact .refl s

theorem keepsSegments_writeTapsCmd (hw slot win pos : Byte) (coeffs : List Coeff) (s : State) :
    KeepsSegments s (writeTapsCmd hw slot win pos coeffs s).1 :=
  keepsSegments_keyed fun c r _ => by
    split
    · exact .refl s
    · split
      · exact .refl s
      · exact .of_eq rfl rfl

theorem keepsSegments_setProfileCmd (profile : Byte) (f : ProfileMsg) (s : State) :
    KeepsSegments s (setProfileCmd profile f s).1 := by
  unfold setProfileCmd
  split
  · exact .refl s
  · split
    · dsimp only
      split
      · exact .refl s
      · split
        · exact .refl s
        · exact .of_eq rfl rfl
    · exact .refl s

theorem keepsSegments_readProfileCmd (profile : Byte) (s : State) : KeepsSegments s (readProfileCmd profile s).1 := by
  unfold readProfileCmd
  split <;> exact .refl s

theorem keepsWindows_enableHighway (e : Byte) (s : State) (h : Nat) : KeepsWindows s (enableHighway e s h) := by
  unfold enableHighway
  split
  · split
    · exact .refl s
    · exact .of_eq rfl rfl
  · exact .of_eq rfl rfl

theorem keepsSegments_configureCmd (e r m d u : Byte) (s : State) : KeepsSegments s (configureCmd e r m d u s).1 := by
  unfold configureCmd
  split
  · split
    · exact .refl s
    · exact (KeepsWindows.foldl (keepsWindows_enableHighway e) _ s).keepsSegments.trans (.of_eq rfl rfl)
  · exact .refl s

theorem keepsSegments_resetHighwayCmd (hw : Byte) (s : State) : KeepsSegments s (resetHighwayCmd hw s).1 := by
  unfold resetHighwayCmd
  split
  · exact .refl s
  · have hretired : KeepsSegments s ((s.boundOn hw.toNat).foldl (fun t c => retire c t) s) :=
      .foldl (fun t c => keepsSegments_retire c t) _ s
    refine hretired.trans (.of_eq ?_ ?_) <;>
    · dsimp only [resetHighway]
      split <;> rfl

theorem keepsSegments_fetchNoticeCmd (s : State) : KeepsSegments s (fetchNoticeCmd s).1 := by
  unfold fetchNoticeCmd
  cases s.pendingHighway with
  | some h => exact .of_eq rfl rfl
  | none =>
    cases hc : s.pendingContext with
    | none => exact .refl s
    | some e =>
      obtain ⟨c, r⟩ := e
      refine ⟨fun h => ?_⟩
      have hr : s.rec? c = some r := tget_of_mem h (List.mem_of_find?_eq_some hc)
      have hset : KeepsWindows s (s.setRec c (clearNotes r)) := .setRec hr rfl
      exact hset.keepsSegments.kept h

theorem keepsSegments_bindAccepted (hw slot flags : Byte) (p g : Nat) (short : Bool) {c : Nat} {s : State}
    (hc : s.rec? c = none) : KeepsSegments s (bindAccepted hw slot flags p c g short s).1 := by
  have hgrant : (s.free.drop g ++ (s.free.take g ++ [])).Perm s.free := by
    rw [List.append_nil]
    exact List.perm_append_comm.trans (.of_eq (List.take_append_drop g s.free))
  unfold bindAccepted
  dsimp only
  split
  · exact .of_vacant hc rfl hgrant
  · refine KeepsSegments.trans ?_ (keepsWindows_requestSearch ..).keepsSegments
    exact .of_vacant hc rfl hgrant

theorem vacant_rec? {s : State} {c : Nat} (h : s.vacant = some c) : s.rec? c = none := by
  simpa using List.find?_some h

theorem keepsSegments_bindCmd (hw slot profile flags : Byte) (s : State) :
    KeepsSegments s (bindCmd hw slot profile flags s).1 := by
  unfold bindCmd
  split
  · exact .refl s
  · split
    · exact .refl s
    · split
      · exact .refl s
      · split
        · exact .refl s
        · split
          · exact .refl s
          · next hv =>
            split
            · exact .refl s
            · exact keepsSegments_bindAccepted _ _ _ _ _ _ (vacant_rec? hv)

/-- What a link command does keeps the segments. -/
theorem keepsSegments_linkEffect {i : Instr} {f : State → State × Reply} (h : linkEffect i = some f) (s : State) :
    KeepsSegments s (f s).1 := by
  cases i <;> simp only [linkEffect, Option.some.injEq, reduceCtorEq] at h <;> subst h
  case bind => exact keepsSegments_bindCmd ..
  case retire => exact keepsSegments_retireCmd ..
  case engage => exact keepsSegments_engageCmd ..
  case hold => exact keepsSegments_holdCmd ..
  case resume => exact keepsSegments_resumeCmd ..
  case restore => exact keepsSegments_restoreCmd ..
  case search => exact keepsSegments_searchCmd ..
  case query => exact keepsSegments_keyed fun _ _ _ => .refl s
  case amendSpan => exact keepsSegments_amendSpanCmd ..
  case amendWindows => exact keepsSegments_amendWindowsCmd ..
  case amendProfile => exact keepsSegments_amendProfileCmd ..
  case readTaps => exact keepsSegments_readTapsCmd ..
  case writeTaps => exact keepsSegments_writeTapsCmd ..
  case readPool => exact .refl s
  case setProfile => exact keepsSegments_setProfileCmd ..
  case readProfile => exact keepsSegments_readProfileCmd ..
  case configure => exact keepsSegments_configureCmd ..
  case readConfig => exact .refl s
  case resetHighway => exact keepsSegments_resetHighwayCmd ..
  case resetStamp => exact .of_eq rfl rfl
  case fetchNotice => exact keepsSegments_fetchNoticeCmd s

theorem keepsSegments_command {i : Instr} {f : State → State × Reply} (h : linkEffect i = some f) (n : Nat) (s : State) :
    KeepsSegments s (s.command n f) :=
  ((keepsWindows_settle s).keepsSegments.trans (keepsSegments_linkEffect h _)).trans (.of_eq rfl rfl)

theorem keepsSegments_transaction (bytes : List Byte) (s : State) : KeepsSegments s (transaction bytes s) := by
  have hof : ∀ t : State, t.ctxs = s.ctxs → t.free = s.free → KeepsSegments s t := fun t hc hf => .of_eq hc hf
  unfold transaction messageTaken
  split
  · exact .refl s
  · split
    · exact hof _ rfl rfl
    · split
      · exact hof _ rfl rfl
      · split
        · exact hof _ rfl rfl
        · next h => exact keepsSegments_command h _ s

/-! ### A frame -/

theorem frameRecord_wins (s : State) (rIn sIn : List Sample) (r : Record) : (s.frameRecord rIn sIn r).wins = r.wins := by
  unfold State.frameRecord
  split
  · rfl
  · split <;> rfl

theorem keepsSegments_frame (rIn sIn : List Sample) (marks : List SyncMarks) (s : State) :
    ∃ t, execFrame rIn sIn marks s = .next t ∧ KeepsSegments s t := by
  have hopen : ∀ t : State, KeepsWindows t (openFrame t) := fun t =>
    .of_map (fun _ => openRecord t.startLines) (fun _ _ => rfl) rfl rfl
  have htake : ∀ t : State, KeepsWindows t (observeFrame marks (takeSamples rIn sIn t)) := fun t =>
    .of_map (fun _ => (t.mapSlots fun _ sl => shiftSlot sl).frameRecord rIn sIn) (fun _ r => frameRecord_wins ..) rfl rfl
  have hphase : ∀ t : State, KeepsWindows t { t with phase := t.phase + 1 } := fun t => .of_eq rfl rfl
  exact ⟨_, rfl, (keepsSegments_closeFrame s).trans (((hopen _).trans (htake _)).trans (hphase _)).keepsSegments⟩

/-! ### Every step -/

theorem segmentsSafe_powerOn (s : State) : segmentsSafe { State.reset with pending := s.pending } := by
  simp [segmentsSafe, State.heldSegs, State.reset]

/-- A link command's step is its effect on the settled state. -/
theorem exec_of_linkEffect {i : Instr} {f : State → State × Reply} (h : linkEffect i = some f) :
    ∃ n, ∀ s, exec i s = .next (s.command n f) := by
  cases i <;> simp only [linkEffect, Option.some.injEq, reduceCtorEq] at h <;> subst h <;> exact ⟨_, fun _ => rfl⟩

/-- Every step but POWER_ON answers a state that keeps the segments. -/
theorem keepsSegments_exec {i : Instr} (hi : i ≠ .powerOn) (s : State) : ∃ t, exec i s = .next t ∧ KeepsSegments s t := by
  cases hf : linkEffect i with
  | some f =>
    obtain ⟨n, hn⟩ := exec_of_linkEffect hf
    exact ⟨_, hn s, keepsSegments_command hf n s⟩
  | none =>
    cases i <;> simp only [linkEffect, reduceCtorEq] at hf
    case powerOn => exact absurd rfl hi
    case frame => exact keepsSegments_frame ..
    case lock => exact ⟨_, rfl, (keepsWindows_takeSync _ keepsWindows_lockHighway _ s).keepsSegments⟩
    case syncLost => exact ⟨_, rfl, (keepsWindows_takeSync _ keepsWindows_loseHighway _ s).keepsSegments⟩
    case syncBack => exact ⟨_, rfl, (keepsWindows_takeSync _ keepsWindows_returnHighway _ s).keepsSegments⟩
    case blockBoundary =>
      refine ⟨_, rfl, ?_⟩
      split
      · exact ((keepsWindows_settle s).trans (keepsWindows_blockBoundary _)).keepsSegments
      · exact .refl s
    case searchCompletion => exact ⟨_, rfl, keepsSegments_takeSearchEnd _ keepsSegments_completeSearch _ s⟩
    case searchFailure =>
      exact ⟨_, rfl, keepsSegments_takeSearchEnd _ (fun _ _ _ _ => (keepsWindows_failSearch ..).keepsSegments) _ s⟩
    case read => exact ⟨_, rfl, .of_eq rfl rfl⟩
    case commandMessage => exact ⟨_, rfl, keepsSegments_transaction _ s⟩
    all_goals exact ⟨_, rfl, (keepsWindows_takeDue _ s).keepsSegments⟩

/-- Settles O51: every operation but POWER_ON keeps the segments of the free list and the windows together. -/
theorem segmentsKept : Obligations.SegmentsKept := by
  intro s t hs h
  unfold step at h
  split at h
  · exact Host.Outcome.next.inj h ▸ hs
  · next i rest _ =>
    by_cases hi : i = .powerOn
    · subst hi
      exact Host.Outcome.next.inj h ▸ segmentsSafe_powerOn _
    · obtain ⟨t', ht, hkept⟩ := keepsSegments_exec hi { s with pending := rest }
      exact Host.Outcome.next.inj (ht.symm.trans h) ▸ segmentsSafe_of_keepsSegments hkept hs

end Sys2Proof.TapSegments


/-! PROOFS. The answers of the link's commands, runs of coefficients in the segments, and READ TAPS and WRITE TAPS (R42, R43). -/

namespace Sys2Proof.TapSegments

open Sys2Proof Sys2Proof.Machine

/-! ### Answers of commands -/

theorem command_responds {n : Nat} {f : State → State × Reply} {s t : State} {clamped shortened already : Bool}
    {body : List Byte}
    (h : f (settle s) =
      (t, { status := .ok, clamped := clamped, shortened := shortened, already := already, body := body })) :
    s.command n f = responds n clamped shortened already body t := by
  rw [command_eq, h]; rfl

theorem command_refuses {n : Nat} {f : State → State × Reply} {s t : State} {st : Status} (h : f (settle s) = (t, refuse st)) :
    s.command n f = refuses n st t := by
  rw [command_eq, h]; rfl

theorem keyed_of_holdsKey {hw slot : Byte} {s : State} {c : Nat} {r : Record} (h : holdsKey s hw slot c r)
    (f : Nat → Record → State × Reply) : keyed hw slot s f = f c r := by
  obtain ⟨hhw, hslot, hindex, hrec⟩ := h
  exact keyed_of (by simp [keyInRange, hhw, hslot]) hindex hrec f

theorem be16_eq_twoBytes (w : BitVec 16) : be16 w = twoBytes w.toNat := by
  have hhi : w.extractLsb' 8 8 = BitVec.ofNat 8 (w.toNat / 256) := BitVec.eq_of_toNat_eq (by simp [Nat.shiftRight_eq_div_pow])
  have hlo : w.extractLsb' 0 8 = BitVec.ofNat 8 w.toNat := BitVec.eq_of_toNat_eq (by simp)
  rw [be16, twoBytes, hhi, hlo]

theorem nat16_eq_twoBytes (n : Nat) : nat16 n = twoBytes n := by
  have hhi : BitVec.ofNat 8 (n % 65536 / 256) = BitVec.ofNat 8 (n / 256) := BitVec.eq_of_toNat_eq (by simp; omega)
  have hlo : BitVec.ofNat 8 (n % 65536) = BitVec.ofNat 8 n := BitVec.eq_of_toNat_eq (by simp)
  rw [nat16, be16_eq_twoBytes, BitVec.toNat_ofNat, twoBytes, twoBytes, hhi, hlo]

/-! ### Runs of coefficients -/

theorem getD_segSlice (cs : List Coeff) (i : Nat) {j : Nat} (hj : j < segTaps) :
    (segSlice cs i).getD j 0 = cs.getD (segTaps * i + j) 0 := by
  simp [segSlice, List.getD_eq_getElem?_getD, List.getElem?_map, List.getElem?_range hj, List.getElem?_drop]

theorem segSlice_zero_of_length {cs : List Coeff} (h : cs.length = segTaps) : segSlice cs 0 = cs := by
  refine List.ext_getElem (by simp [h]) fun j hj hj' => ?_
  rw [← List.getD_eq_getElem _ 0 hj, getD_segSlice cs 0 (h ▸ hj'), Nat.mul_zero, Nat.zero_add, List.getD_eq_getElem _ 0 hj']

theorem segRead_segWrite (pool : List (Nat × List Coeff)) (g k : Nat) (v : List Coeff) :
    segRead (segWrite pool g v) k = if k = g then v else segRead pool k := by
  split
  · next h => rw [h, segRead_segWrite_same]
  · next h => rw [segRead_segWrite_other _ h]

/-! ### The operands of READ TAPS and WRITE TAPS -/

/-- The operands name the segment `g` of the window `x` (R42). -/
def namesSegment (w : Windows) (win pos : Byte) (x : Window) (g : Nat) : Prop :=
  (win.toNat = 0 ∧ x = w.first ∨ win.toNat = 1 ∧ w.second = some x) ∧ x.segs[pos.toNat]? = some g

theorem tapSegment_of_namesSegment {w : Windows} {win pos : Byte} {x : Window} {g : Nat} (h : namesSegment w win pos x g) :
    tapSegment w win pos = some (g, x.base + pos.toNat) := by
  obtain ⟨⟨hwin, rfl⟩ | ⟨hwin, hx⟩, hg⟩ := h
  · simp [tapSegment, hwin, hg]
  · simp [tapSegment, hwin, hx, hg]

theorem tapSegment_eq_none {w : Windows} {win pos : Byte} (h : ∀ x g, ¬namesSegment w win pos x g) :
    tapSegment w win pos = none := by
  have hwindow : ∀ x, (win.toNat = 0 ∧ x = w.first ∨ win.toNat = 1 ∧ w.second = some x) → x.segs[pos.toNat]? = none :=
    fun x hx => Option.eq_none_iff_forall_ne_some.2 fun g hg => h x g ⟨hx, hg⟩
  unfold tapSegment
  dsimp only
  split
  · rfl
  · next v hv =>
    rw [hwindow v]
    split at hv
    · next h0 => exact .inl ⟨h0, (Option.some.inj hv).symm⟩
    · next h1 => exact .inr ⟨h1, hv⟩
    · cases hv

/-! ### READ TAPS and WRITE TAPS -/

theorem readTaps_named {hw slot win pos : Byte} {s : State} {c : Nat} {r : Record} (hk : holdsKey (settle s) hw slot c r)
    {x : Window} {g : Nat} (h : namesSegment r.wins win pos x g) :
    takes (.readTaps hw slot win pos) s (responds 7 false false false
      (twoBytes g ++ twoBytes (16 * (x.base + pos.toNat)) ++
        ((segRead (settle s).pool g).map fun k => twoBytes k.toNat).flatten) (settle s)) := by
  refine congrArg _ (command_responds ?_)
  have hbytes : (segRead (settle s).pool g).flatMap be16 =
      ((segRead (settle s).pool g).map fun k => twoBytes k.toNat).flatten := by
    rw [List.flatMap_def, funext be16_eq_twoBytes]
  rw [readTapsCmd, keyed_of_holdsKey hk, tapSegment_of_namesSegment h]
  simp only [answer, nat16_eq_twoBytes, hbytes]

theorem readTaps_unnamed {hw slot win pos : Byte} {s : State} {c : Nat} {r : Record} (hk : holdsKey (settle s) hw slot c r)
    (h : ∀ x g, ¬namesSegment r.wins win pos x g) : takes (.readTaps hw slot win pos) s (refuses 7 .range (settle s)) := by
  refine congrArg _ (command_refuses ?_)
  rw [readTapsCmd, keyed_of_holdsKey hk, tapSegment_eq_none h]

theorem writeTaps_not_held {hw slot : Byte} (win pos : Byte) (coeffs : List Coeff) {s : State} {c : Nat} {r : Record}
    (hk : holdsKey (settle s) hw slot c r) (hm : r.main ≠ .held) :
    takes (.writeTaps hw slot win pos coeffs) s (refuses 39 .state (settle s)) := by
  refine congrArg _ (command_refuses ?_)
  rw [writeTapsCmd, keyed_of_holdsKey hk, if_pos hm]

theorem writeTaps_unnamed {hw slot win pos : Byte} (coeffs : List Coeff) {s : State} {c : Nat} {r : Record}
    (hk : holdsKey (settle s) hw slot c r) (hm : r.main = .held) (h : ∀ x g, ¬namesSegment r.wins win pos x g) :
    takes (.writeTaps hw slot win pos coeffs) s (refuses 39 .range (settle s)) := by
  refine congrArg _ (command_refuses ?_)
  rw [writeTapsCmd, keyed_of_holdsKey hk, if_neg (not_not.2 hm), tapSegment_eq_none h]

theorem writeTaps_named {hw slot win pos : Byte} {coeffs : List Coeff} (hlen : coeffs.length = 16) {s : State} {c : Nat}
    {r : Record} (hk : holdsKey (settle s) hw slot c r) (hm : r.main = .held) {x : Window} {g : Nat}
    (h : namesSegment r.wins win pos x g) :
    takes (.writeTaps hw slot win pos coeffs) s
      (responds 39 false false false (twoBytes g) { settle s with pool := segWrite (settle s).pool g coeffs }) := by
  refine congrArg _ (command_responds ?_)
  rw [writeTapsCmd, keyed_of_holdsKey hk, if_neg (not_not.2 hm), tapSegment_of_namesSegment h]
  simp only [answer, nat16_eq_twoBytes, segSlice_zero_of_length hlen]

/-- Settles O44. -/
theorem readAndWriteTaps : Obligations.ReadAndWriteTaps := by
  intro hw slot win pos coeffs s c r hk hlen
  exact ⟨fun _ _ h => readTaps_named hk h, fun h => readTaps_unnamed hk h, fun hm => writeTaps_not_held win pos coeffs hk hm,
    fun hm h => writeTaps_unnamed coeffs hk hm h,
    fun hm _ g h => ⟨segWrite (settle s).pool g coeffs, fun k => segRead_segWrite .., writeTaps_named hlen hk hm h⟩⟩

end Sys2Proof.TapSegments


/-! PROOFS. The search layer that the commands on windows act on (R41, R113, R115, R126), and AMEND SPAN (R39 to R41). -/

namespace Sys2Proof.TapSegments

open Sys2Proof Sys2Proof.Machine

/-- Two states with the same fields are one. -/
theorem state_ext {s t : State} (pending : s.pending = t.pending) (phase : s.phase = t.phase)
    (blockCounter : s.blockCounter = t.blockCounter) (sync : s.sync = t.sync) (hwKinds : s.hwKinds = t.hwKinds)
    (stamp : s.stamp = t.stamp) (prescale : s.prescale = t.prescale) (stampUnit : s.stampUnit = t.stampUnit)
    (slots : s.slots = t.slots) (ctxs : s.ctxs = t.ctxs) (index : s.index = t.index) (pool : s.pool = t.pool)
    (free : s.free = t.free) (sched : s.sched = t.sched) (pointer : s.pointer = t.pointer) (units : s.units = t.units)
    (queue : s.queue = t.queue) (profiles : s.profiles = t.profiles) (resp : s.resp = t.resp) (linkOut : s.linkOut = t.linkOut)
    (settings : s.settings = t.settings) (inForce : s.inForce = t.inForce) (lineA : s.lineA = t.lineA)
    (lineB : s.lineB = t.lineB) (due : s.due = t.due) : s = t := by
  obtain ⟨⟩ := s
  obtain ⟨⟩ := t
  congr

/-! ### What R112 says of a state, read off its test -/

/-- The parts of `searchSafe` that the commands of this family rest on. -/
theorem searchSafe_elim {s : State} (h : searchSafe s = true) :
    rising s.ctxs = true ∧ s.queue.Nodup ∧ (∀ c r, s.rec? c = some r → linkAgrees s c r = true) ∧
    ∀ d ∈ s.queue, ∃ r, s.rec? d = some r ∧ r.link = .queued := by
  simp only [searchSafe, Bool.and_eq_true, List.all_eq_true, Option.any_eq_true, decide_eq_true_eq, beq_iff_eq] at h
  obtain ⟨⟨⟨⟨⟨⟨hrise, _⟩, hnodup⟩, hlinks⟩, hqueue⟩, _⟩, _⟩ := h
  exact ⟨hrise, hnodup, fun c r hr => hlinks (c, r) (mem_of_tget hr), hqueue⟩

theorem not_mem_queue_of_link {s : State} (h : searchSafe s = true) {c : Nat} {r : Record} (hr : s.rec? c = some r)
    (hl : r.link ≠ .queued) : c ∉ s.queue := fun hc => by
  obtain ⟨_, _, _, hqueue⟩ := searchSafe_elim h
  obtain ⟨q, hq, hql⟩ := hqueue c hc
  rw [hr] at hq
  exact hl (Option.some.inj hq ▸ hql)

theorem searchable_of_searching {s : State} (h : searchSafe s = true) {c k : Nat} {r : Record} (hr : s.rec? c = some r)
    (hl : r.link = .searching k) : r.main.searchable = true := by
  obtain ⟨_, _, hlinks, _⟩ := searchSafe_elim h
  have := hlinks c r hr
  simp only [linkAgrees, hl, Bool.and_eq_true] at this
  exact this.1

theorem searchable_eq_false_iff (m : MainState) : m.searchable = false ↔ m = .held ∨ m = .cut := by
  cases m <;> simp [MainState.searchable]

/-! ### Requests and freed units -/

theorem startSearch_eq {u c : Nat} {b : Bool} {s : State} {r : Record} (hr : s.rec? c = some r) :
    startSearch u c b s = { s with
      ctxs := tset c { r with link := .searching u } s.ctxs
      queue := s.queue.filter fun j => j ≠ c
      units := tset u (freshUnit c r.id.span b) s.units } := by
  unfold startSearch
  rw [hr]
  rfl

theorem modRec_eq {c : Nat} {s : State} {r : Record} (hr : s.rec? c = some r) (f : Record → Record) :
    s.modRec c f = s.setRec c (f r) := by
  rw [State.modRec, hr]

theorem setLink_eq {l : SearchLink} {c : Nat} {s : State} {r : Record} (hr : s.rec? c = some r) :
    setLink l c s = s.setRec c { r with link := l } := modRec_eq hr _

/-- The lowest-numbered IDLE unit is the one with no entry whose lower ones all have one (R113). -/
theorem idleUnit_eq_some {s : State} {u : Nat} (hu : u < 4) (hidle : tget u s.units = none)
    (hbusy : ∀ v, v < u → tget v s.units ≠ none) : s.idleUnit = some u := by
  rw [State.idleUnit, List.find?_range_eq_some]
  exact ⟨by simp [hidle], List.mem_range.2 hu, fun v hv => by simpa [Option.isSome_iff_ne_none] using hbusy v hv⟩

theorem idleUnit_eq_none {s : State} (hbusy : ∀ u, u < 4 → tget u s.units ≠ none) : s.idleUnit = none := by
  rw [State.idleUnit, List.find?_range_eq_none]
  exact fun v hv => by simpa [Option.isSome_iff_ne_none] using hbusy v hv

theorem requested_requestSearch {c : Nat} {r : Record} {s : State} (hr : s.rec? c = some r) (hm : r.main.searchable = true)
    (b : Bool) : requested c r b s (requestSearch c b s) := by
  refine ⟨fun hl => ?_, fun hl => ⟨fun u hu hidle hbusy => ?_, fun hbusy => ?_⟩⟩
  · rcases requestSearch_cases c b s with h | ⟨q, hq, _, hql, _⟩
    · exact h
    · rw [hr] at hq
      exact absurd (Option.some.inj hq ▸ hql) hl
  · have : requestSearch c b s = startSearch u c b s := by
      simp [requestSearch, hr, hm, hl, idleUnit_eq_some hu hidle hbusy]
    rw [this, startSearch_eq hr]
  · have : requestSearch c b s = { setLink .queued c s with queue := s.queue ++ [c] } := by
      simp [requestSearch, hr, hm, hl, idleUnit_eq_none hbusy]
    rw [this, setLink_eq hr]
    rfl

/-- A freed unit becomes IDLE when no one waits (R115). -/
theorem freeUnit_idle {u : Nat} {b : Bool} {s : State} (hq : s.queue = []) :
    freeUnit u b s = { s with units := tdel u s.units } := by
  rcases freeUnit_cases u b s with ⟨_, h⟩ | ⟨_, _, hcons, _⟩
  · exact h
  · simp [hq] at hcons

/-- A freed unit takes the head of the queue (R115). -/
theorem freeUnit_head {u d : Nat} {b : Bool} {s : State} {rest : List Nat} {rd : Record} (hq : s.queue = d :: rest)
    (hd : d ∉ rest) (hr : s.rec? d = some rd) :
    freeUnit u b s = { s with
      ctxs := tset d { rd with link := .searching u } s.ctxs
      queue := rest
      units := tset u (freshUnit d rd.id.span b) (tdel u s.units) } := by
  have hfilter : (s.queue.filter fun j => j ≠ d) = rest := by
    rw [hq, List.filter_cons_of_neg (by simp), List.filter_eq_self.2 fun j hj => by simpa using fun he : j = d => hd (he ▸ hj)]
  rcases freeUnit_cases u b s with ⟨hnil, _⟩ | ⟨e, l, hcons, h⟩
  · simp [hnil] at hq
  · obtain rfl : e = d := (List.cons.inj (hcons.symm.trans hq)).1
    rw [h, startSearch_eq (s := { s with units := tdel u s.units }) hr]
    simp only [hfilter]

/-! ### The clip of AMEND SPAN -/

/-- A window that fits, clipped to a span above its base (R40). -/
theorem clipWindow_of_fits {start span n : Nat} {w : Window} (h : windowFits start span w = true) (hn : w.base < n) :
    clipWindow n w = { w with limit := min w.limit (n - 1), segs := w.segs.take (n - w.base) } ∧
    clippedSegs n w = w.segs.drop (n - w.base) := by
  simp only [windowFits, Bool.and_eq_true, decide_eq_true_eq, beq_iff_eq] at h
  obtain ⟨⟨⟨_, _⟩, _⟩, hlen⟩ := h
  unfold clipWindow clippedSegs
  split
  · next hle =>
    have hshort : w.segs.length ≤ n - w.base := by omega
    rw [Nat.min_eq_left hle, List.take_of_length_le hshort, List.drop_of_length_le hshort]
    exact ⟨rfl, rfl⟩
  · next hgt => rw [Nat.min_eq_right (Nat.le_of_not_le hgt)]; exact ⟨rfl, rfl⟩

/-- The second window after a clip; one based at or beyond the span is removed (R40). -/
def clippedSecond (n : Nat) (second : Option Window) : Option Window :=
  second.bind fun v =>
    if n ≤ v.base then none else some { v with limit := min v.limit (n - 1), segs := v.segs.take (n - v.base) }

theorem clipWindows_of_fits {span n : Nat} {w : Windows} (h : windowsFit span w = true) (hn : w.first.base < n) :
    clipWindows n w = { w with
      first := { w.first with limit := min w.first.limit (n - 1), segs := w.first.segs.take (n - w.first.base) }
      second := clippedSecond n w.second } ∧
    clipReturns n w = w.first.segs.drop (n - w.first.base) ++
      (match w.second with | none => [] | some v => v.segs.drop (n - v.base)) := by
  obtain ⟨hfirst, hsecond⟩ : windowFits 0 span w.first = true ∧ _ := by simpa [windowsFit] using h
  obtain ⟨hclip, hback⟩ := clipWindow_of_fits hfirst hn
  unfold clipWindows clipReturns clippedSecond
  rw [hclip, hback]
  cases hw : w.second with
  | none => exact ⟨rfl, rfl⟩
  | some v =>
    rw [hw] at hsecond
    by_cases hv : n ≤ v.base
    · simp [hv, Nat.sub_eq_zero_of_le hv]
    · obtain ⟨hclip', hback'⟩ := clipWindow_of_fits hsecond (Nat.lt_of_not_le hv)
      simp [hv, hclip', hback']

/-! ### The search after a clip (R41) -/

theorem respanSearch_of_settled {c : Nat} {r : Record} {s : State} (h : r.main = .held ∨ r.main = .cut ∨ r.link = .queued) :
    respanSearch c r s = s := by
  unfold respanSearch
  rcases h with h | h | h <;> simp [h, MainState.searchable]

theorem respanSearch_requested {c : Nat} {r q : Record} {s : State} (hm : r.main.searchable = true) (hl : r.link = .none)
    (hq : s.rec? c = some q) (hqm : q.main = r.main) : requested c q false s (respanSearch c r s) := by
  have : respanSearch c r s = requestSearch c false s := by simp [respanSearch, hm, hl]
  rw [this]
  exact requested_requestSearch hq (hqm ▸ hm) false

theorem respanSearch_searching {c k : Nat} {r q : Record} {s : State} (hm : r.main.searchable = true) (hl : r.link = .searching k)
    (hq : s.rec? c = some q) :
    respanSearch c r s =
      freeUnit k false { s with ctxs := tset c { q with link := .queued } s.ctxs, queue := s.queue ++ [c] } := by
  simp only [respanSearch, hm, hl, setLink_eq hq]
  rfl

/-- With no one waiting, the freed unit takes the record's own new request (R41). -/
theorem respanSearch_alone {c k : Nat} {r q : Record} {s : State} (hm : r.main.searchable = true) (hl : r.link = .searching k)
    (hq : s.rec? c = some q) (hrise : rising s.ctxs = true) (hql : q.link = .searching k) (hqueue : s.queue = []) :
    respanSearch c r s = { s with units := tset k (freshUnit c q.id.span false) (tdel k s.units) } := by
  rw [respanSearch_searching hm hl hq, freeUnit_head (rest := []) (d := c) (rd := { q with link := .queued }) (by simp [hqueue])
    (by simp) (by simp [State.rec?])]
  have hctxs : tset c { q with link := .searching k } (tset c { q with link := .queued } s.ctxs) = s.ctxs := by
    refine rising_ext (rising_tset (rising_tset hrise)) hrise fun d => ?_
    by_cases hd : d = c
    · subst hd
      rw [tget_tset_same, ← hql]
      exact hq.symm
    · rw [tget_tset_other hd, tget_tset_other hd]
  simp only [hctxs, hqueue]

/-- With others waiting, the freed unit takes the head, and the record's own request stands at the tail (R41). -/
theorem respanSearch_behind {c k d : Nat} {r q rd : Record} {s : State} {rest : List Nat} (hm : r.main.searchable = true)
    (hl : r.link = .searching k) (hq : s.rec? c = some q) (hqueue : s.queue = d :: rest) (hd : d ∉ rest) (hdc : d ≠ c)
    (hrd : s.rec? d = some rd) :
    respanSearch c r s = { s with
      ctxs := tset d { rd with link := .searching k } (tset c { q with link := .queued } s.ctxs)
      queue := rest ++ [c]
      units := tset k (freshUnit d rd.id.span false) (tdel k s.units) } := by
  rw [respanSearch_searching hm hl hq, freeUnit_head (rest := rest ++ [c]) (d := d) (rd := rd) (by simp [hqueue])
    (by simp [hd, hdc])]
  rw [State.rec?, tget_tset_other hdc]
  exact hrd

/-! ### AMEND SPAN -/

theorem amendSpan_refused {hw slot span : Byte} {s : State} {c : Nat} {r : Record} (hk : holdsKey (settle s) hw slot c r)
    (hn : min span.toNat 64 = 0 ∨ min span.toNat 64 ≤ r.wins.first.base) :
    takes (.amendSpan hw slot span) s (refuses 6 .range (settle s)) := by
  refine congrArg _ (command_refuses ?_)
  rw [amendSpanCmd, keyed_of_holdsKey hk]
  rw [Nat.min_comm] at hn
  exact if_pos hn

/-- What an accepted AMEND SPAN answers: the clipped windows `wins` and the number of segments returned, `back`. -/
theorem amendSpan_accepted {hw slot span : Byte} {s : State} {c : Nat} {r : Record} (hk : holdsKey (settle s) hw slot c r)
    (hn : r.wins.first.base < min span.toNat 64) {wins : Windows} {back : List Nat}
    (hwins : clipWindows (min span.toNat 64) r.wins = wins) (hback : clipReturns (min span.toNat 64) r.wins = back)
    {u : State} {q : Record}
    (hu : u = respanSearch c r { settle s with
      ctxs := tset c { r with id := { r.id with span := min span.toNat 64 }, wins := wins } (settle s).ctxs
      free := (settle s).free ++ back })
    (hq : u.rec? c = some q) :
    takes (.amendSpan hw slot span) s (responds 6 (decide (64 < span.toNat)) false false
      ([BitVec.ofNat 8 (min span.toNat 64), BitVec.ofNat 8 wins.first.base, BitVec.ofNat 8 wins.first.limit] ++
        (match wins.second with | none => [0, 0, 0] | some x => [1, BitVec.ofNat 8 x.base, BitVec.ofNat 8 x.limit]) ++
        [BitVec.ofNat 8 back.length, q.link.code]) u) := by
  refine congrArg _ (command_responds ?_)
  rw [amendSpanCmd, keyed_of_holdsKey hk]
  dsimp only
  have hmin : min maxSpan span.toNat = min span.toNat 64 := Nat.min_comm ..
  rw [hmin, if_neg (by omega), hwins, hback]
  have hlink : u.linkOf c = q.link := by rw [State.linkOf, hq]
  rw [← hlink, hu]
  rfl

/-- Settles O42. -/
theorem amendSpan : Obligations.AmendSpan := by
  intro hw slot span s c r hk hsafe hfit w n second wins back r' v
  refine ⟨amendSpan_refused hk, fun hn => ?_⟩
  obtain ⟨hclip, hback⟩ : clipWindows n r.wins = wins ∧ clipReturns n r.wins = back := clipWindows_of_fits hfit hn
  obtain ⟨hrise, hnodup, _, hqueue⟩ := searchSafe_elim hsafe
  have ⟨_, _, _, hr⟩ := hk
  have hr' : v.rec? c = some r' := tget_tset_same ..
  have hothers : ∀ d, d ≠ c → v.rec? d = w.rec? d := fun d hd => tget_tset_other hd ..
  have hsearchable : r.main ≠ .held → r.main ≠ .cut → r.main.searchable = true := fun h h' => by
    rw [← Bool.not_eq_false, searchable_eq_false_iff]
    simp [h, h']
  obtain ⟨q, hq, _⟩ : ∃ q, (respanSearch c r v).rec? c = some q ∧ q.wins = r'.wins := by
    simpa [hr'] using (keepsWindows_respanSearch c r v).wins c
  refine ⟨respanSearch c r v, q, hq, amendSpan_accepted hk hn hclip hback rfl hq, respanSearch_of_settled,
    fun h h' hl => respanSearch_requested (hsearchable h h') hl hr' rfl, fun k hl => ?_⟩
  have hm : r.main.searchable = true := searchable_of_searching hsafe hr hl
  obtain hwq | ⟨d, rest, hwq⟩ : w.queue = [] ∨ ∃ d rest, w.queue = d :: rest := by cases w.queue <;> simp
  · have hu := respanSearch_alone hm hl hr' (rising_tset hrise) hl hwq
    rw [hu] at hq ⊢
    exact ⟨rfl, rfl, fun _ => ⟨Option.some.inj (hq.symm.trans hr'), hwq, rfl, hothers⟩,
      fun d rest h => absurd (h.symm.trans hwq) (List.cons_ne_nil d rest)⟩
  · have hdmem : d ∈ w.queue := hwq ▸ List.mem_cons_self
    have hd : d ∉ rest := (List.nodup_cons.1 (hwq ▸ hnodup)).1
    have hdc : d ≠ c := fun h => not_mem_queue_of_link hsafe hr (by simp [hl]) (h ▸ hdmem)
    obtain ⟨rd, hrd, _⟩ := hqueue d hdmem
    have hu := respanSearch_behind hm hl hr' hwq hd hdc ((hothers d hdc).trans hrd)
    have hqc : (respanSearch c r v).rec? c = some { r' with link := .queued } := by
      rw [hu]
      exact (tget_tset_other hdc.symm _ _).trans (tget_tset_same ..)
    refine ⟨by rw [hu], by rw [hu], fun h => absurd (hwq.symm.trans h) (List.cons_ne_nil d rest), fun d' rest' h => ?_⟩
    obtain ⟨rfl, rfl⟩ := List.cons.inj (hwq.symm.trans h)
    refine ⟨Option.some.inj (hq.symm.trans hqc), by rw [hu], rd, hrd, ?_, by rw [hu], fun e hec hed => ?_⟩
    · rw [hu]
      exact tget_tset_same ..
    · rw [hu]
      exact (tget_tset_other hed _ _).trans ((tget_tset_other hec _ _).trans (hothers e hec))

end Sys2Proof.TapSegments


/-! PROOFS. Runs of coefficients read back from the segments they were written to, relocation under a full grant (R28, R32, R33),
and AMEND WINDOWS (R36, R37). -/

namespace Sys2Proof.TapSegments

open Sys2Proof Sys2Proof.Machine

/-! ### Reading back what was written -/

theorem segRead_length {pool : List (Nat × List Coeff)} (h : poolWf pool = true) (g : Nat) :
    (segRead pool g).length = segTaps := by
  unfold segRead
  cases hg : tget g pool with
  | none => exact zeroSeg_length
  | some v => exact ((poolWf_iff.1 h).2 _ (mem_of_tget hg)).1

/-- An entry of a list made of blocks of `n` entries each. -/
theorem getElem?_flatMap_blocks {α β : Type} {n : Nat} {f : α → List β} (hf : ∀ a, (f a).length = n) (l : List α)
    (i : Nat) {j : Nat} (hj : j < n) : (l.flatMap f)[n * i + j]? = l[i]?.bind fun a => (f a)[j]? := by
  induction l generalizing i with
  | nil => simp
  | cons a l ih =>
    cases i with
    | zero => simp [List.getElem?_append_left, hf, hj]
    | succ i =>
      have hsplit : n * (i + 1) + j = (f a).length + (n * i + j) := by rw [hf, Nat.mul_succ]; omega
      rw [List.flatMap_cons, hsplit, List.getElem?_append_right (Nat.le_add_right ..), Nat.add_sub_cancel_left, ih]
      simp

theorem segSlice_drop (cs : List Coeff) (i : Nat) : segSlice (cs.drop segTaps) i = segSlice cs (i + 1) := by
  have : segTaps + segTaps * i = segTaps * (i + 1) := by rw [Nat.mul_succ, Nat.add_comm]
  simp [segSlice, List.drop_drop, this]

theorem segRead_writeRun {gs : List Nat} (hnodup : gs.Nodup) {i g : Nat} (hi : gs[i]? = some g) (pool : List (Nat × List Coeff))
    (cs : List Coeff) : segRead (writeRun pool gs cs) g = segSlice cs i := by
  induction gs generalizing i pool cs with
  | nil => simp at hi
  | cons x gs ih =>
    obtain ⟨hx, hgs⟩ := List.nodup_cons.1 hnodup
    cases i with
    | zero =>
      obtain rfl : x = g := by simpa using hi
      rw [writeRun, segRead_writeRun_other _ hx, segRead_segWrite_same]
    | succ i => rw [writeRun, ih hgs (by simpa using hi), segSlice_drop]

/-- A coefficient of a segment that a window of base `base` was written to, from the taps 0..1023 (R33). -/
theorem getD_segRead_writeRun {gs : List Nat} (hnodup : gs.Nodup) {i g j : Nat} (hi : gs[i]? = some g) (hj : j < 16)
    (pool : List (Nat × List Coeff)) (src : List Coeff) (base : Nat) :
    (segRead (writeRun pool gs (src.drop (segTaps * base))) g).getD j 0 = src.getD (16 * (base + i) + j) 0 := by
  have htap : segTaps * base + (segTaps * i + j) = 16 * (base + i) + j := by simp only [segTaps]; omega
  rw [segRead_writeRun hnodup hi, getD_segSlice _ _ hj, List.getD_eq_getElem?_getD, List.getElem?_drop, htap,
    ← List.getD_eq_getElem?_getD]

theorem positionCoeffs_length {pool : List (Nat × List Coeff)} (h : poolWf pool = true) (w : Windows) (pos : Nat) :
    (positionCoeffs pool w pos).length = segTaps := by
  unfold positionCoeffs
  split
  · exact zeroSeg_length
  · split
    · exact zeroSeg_length
    · exact segRead_length h _

/-- The coefficients of the taps 0..1023, tap by tap (R33). -/
theorem getD_allTaps {pool : List (Nat × List Coeff)} (h : poolWf pool = true) (w : Windows) {k : Nat} (hk : k < 1024) :
    (allTaps pool w).getD k 0 = tapCoeff pool w k := by
  have hpos : k / 16 < maxSpan := by simp only [maxSpan]; omega
  have hentry := getElem?_flatMap_blocks (positionCoeffs_length h w) (List.range maxSpan) (k / 16) (j := k % 16)
    (Nat.mod_lt k (by decide))
  rw [Nat.div_add_mod, List.getElem?_range hpos] at hentry
  rw [allTaps, List.getD_eq_getElem?_getD, hentry, tapCoeff, List.getD_eq_getElem?_getD]
  rfl

/-! ### The segments of one record among all -/

theorem heldSegs_perm {s : State} (hrise : rising s.ctxs = true) {c : Nat} {r : Record} (hr : s.rec? c = some r) :
    s.heldSegs.Perm (r.wins.segs ++ (tdel c s.ctxs).flatMap fun e => e.2.wins.segs) :=
  flatMap_perm_tdel (fun q : Record => q.wins.segs) hrise hr

/-- The free segments, a record's own and those of all others are distinct (R27). -/
theorem nodup_segments {s : State} (h : segmentsSafe s) {c : Nat} {r : Record} (hr : s.rec? c = some r) :
    (s.free ++ r.wins.segs ++ (tdel c s.ctxs).flatMap fun e => e.2.wins.segs).Nodup := by
  obtain ⟨hrise, hperm⟩ := h
  rw [List.append_assoc, ← ((heldSegs_perm hrise hr).append_left s.free).nodup_iff, hperm.nodup_iff]
  exact List.nodup_range

/-! ### Relocation under a full grant -/

theorem segs_of_one (x : Window) (short : Bool) : (Windows.mk x none short).segs = x.segs := List.append_nil _

theorem segs_of_two (x y : Window) (short : Bool) : (Windows.mk x (some y) short).segs = x.segs ++ y.segs := rfl

/-- Both runs of a grant are distinct segments, and no segment is in both. -/
theorem nodup_grant {l : List Nat} (h : l.Nodup) (n m : Nat) :
    (l.take n).Nodup ∧ ((l.drop n).take m).Nodup ∧ ∀ g ∈ l.take n, g ∉ (l.drop n).take m := by
  rw [← List.take_append_drop n l, List.nodup_append] at h
  obtain ⟨htake, hdrop, hne⟩ := h
  exact ⟨htake, hdrop.sublist (List.take_sublist ..), fun g hg hg' => hne g hg g (List.mem_of_mem_take hg') rfl⟩

theorem windowAt_of_length {base n : Nat} {segs : List Nat} (h : segs.length = n) :
    windowAt base segs = { base := base, limit := base + n - 1, segs := segs } := by rw [windowAt, h]

theorem relocated_first {s : State} {c : Nat} {r : Record} (hr : s.rec? c = some r) (hnodup : (s.free ++ r.wins.segs).Nodup)
    {first : Place} {src : List Coeff} {source : Nat → Coeff} (hsrc : ∀ k, k < 1024 → src.getD k 0 = source k)
    (hfirst : first.1 + first.2 ≤ 64) (hroom : first.2 ≤ (s.free ++ r.wins.segs).length) :
    ∃ v, (relocate c first none src s).rec? c = some { r with wins := v } ∧ v.shortened = false ∧
      relocated r.wins first none source s (relocate c first none src s) v := by
  have hlen : ((s.free ++ r.wins.segs).take first.2).length = first.2 := List.length_take_of_le hroom
  have hg : grant (s.free ++ r.wins.segs).length first none = (first.2, false, false) := by simp only [grant, if_pos hroom]
  obtain ⟨htake, _, _⟩ := nodup_grant hnodup first.2 0
  rw [relocate_first hr hg src]
  refine ⟨_, rec?_setRec_same .., rfl, ?_⟩
  unfold relocated
  dsimp only
  rw [windowAt_of_length hlen, Nat.min_eq_left hroom]
  refine ⟨rfl, rfl, by simpa using hroom, ?_, fun g hg => ?_, fun x i g j hx hi hj => ?_⟩
  · rw [segs_of_one, hlen]
  · rw [segs_of_one] at hg
    exact segRead_writeRun_other _ hg _
  · obtain rfl : x = _ := by simpa [Windows.list] using hx
    have hi' := (List.getElem?_eq_some_iff.1 hi).1
    rw [getD_segRead_writeRun htake hi hj, hsrc]
    simp only [hlen] at hi'
    show 16 * (first.1 + i) + j < 1024
    omega

theorem relocated_both {s : State} {c : Nat} {r : Record} (hr : s.rec? c = some r) (hnodup : (s.free ++ r.wins.segs).Nodup)
    {first second : Place} {src : List Coeff} {source : Nat → Coeff} (hsrc : ∀ k, k < 1024 → src.getD k 0 = source k)
    (hfirst : first.1 + first.2 ≤ 64) (hsecond : second.1 + second.2 ≤ 64)
    (hroom : first.2 + second.2 ≤ (s.free ++ r.wins.segs).length) :
    ∃ v, (relocate c first (some second) src s).rec? c = some { r with wins := v } ∧ v.shortened = false ∧
      relocated r.wins first (some second) source s (relocate c first (some second) src s) v := by
  have hfree : first.2 ≤ (s.free ++ r.wins.segs).length := by omega
  have hlen : ((s.free ++ r.wins.segs).take first.2).length = first.2 := List.length_take_of_le hfree
  have hlen' : (((s.free ++ r.wins.segs).drop first.2).take second.2).length = second.2 :=
    List.length_take_of_le (by rw [List.length_drop]; omega)
  have hg : grant (s.free ++ r.wins.segs).length first (some second) = (first.2, true, false) := by
    simp only [grant, if_pos hroom]
  obtain ⟨htake, htake', hdisjoint⟩ := nodup_grant hnodup first.2 second.2
  rw [relocate_both hr hg src]
  refine ⟨_, rec?_setRec_same .., rfl, ?_⟩
  unfold relocated
  dsimp only
  rw [windowAt_of_length hlen, windowAt_of_length hlen', Nat.min_eq_left hfree, if_pos hroom]
  refine ⟨rfl, rfl, by simpa using hroom, ?_, fun g hg => ?_, fun x i g j hx hi hj => ?_⟩
  · rw [segs_of_two, List.length_append, hlen, hlen', List.drop_drop]
  · obtain ⟨hg, hg'⟩ := not_or.1 (mt List.mem_append.2 (segs_of_two .. ▸ hg))
    rw [segRead_writeRun_other _ hg', segRead_writeRun_other _ hg]
  · simp only [Windows.list, Option.toList, List.mem_cons, List.not_mem_nil, or_false] at hx
    have hi' := (List.getElem?_eq_some_iff.1 hi).1
    rcases hx with rfl | rfl
    · rw [segRead_writeRun_other _ (hdisjoint g (List.mem_of_getElem? hi)), getD_segRead_writeRun htake hi hj, hsrc]
      simp only [hlen] at hi'
      omega
    · rw [getD_segRead_writeRun htake' hi hj, hsrc]
      simp only [hlen'] at hi'
      omega

/-- A relocation for which there is room gives the windows asked for, in full (R28, R33). -/
theorem relocated_full {s : State} {c : Nat} {r : Record} (hr : s.rec? c = some r) (hnodup : (s.free ++ r.wins.segs).Nodup)
    {first : Place} {second : Option Place} {src : List Coeff} {source : Nat → Coeff}
    (hsrc : ∀ k, k < 1024 → src.getD k 0 = source k) (hfirst : first.1 + first.2 ≤ 64)
    (hsecond : ∀ x ∈ second, x.1 + x.2 ≤ 64) (hroom : first.2 + (second.map (·.2)).getD 0 ≤ s.free.length + r.segCount) :
    ∃ v, (relocate c first second src s).rec? c = some { r with wins := v } ∧ v.shortened = false ∧
      relocated r.wins first second source s (relocate c first second src s) v := by
  rw [Record.segCount, ← List.length_append] at hroom
  cases second with
  | none => exact relocated_first hr hnodup hsrc hfirst hroom
  | some x => exact relocated_both hr hnodup hsrc hfirst (hsecond x rfl) hroom

theorem relocated_congr {old v : Windows} {first : Place} {second : Option Place} {source : Nat → Coeff} {s s' t t' : State}
    (hf : s'.free = s.free) (hp : s'.pool = s.pool) (hf' : t'.free = t.free) (hp' : t'.pool = t.pool)
    (h : relocated old first second source s t v) : relocated old first second source s' t' v := by
  unfold relocated at h ⊢
  rw [hf, hp, hf', hp']
  exact h

theorem rec?_relocate_other {c d : Nat} (h : d ≠ c) (first : Place) (second : Option Place) (src : List Coeff) (s : State) :
    (relocate c first second src s).rec? d = s.rec? d := by
  unfold relocate
  split
  · rfl
  · dsimp only
    split <;> exact rec?_setRec_other h _ s

/-! ### The end of a search -/

theorem searchEnded_endSearch {s : State} (hsafe : searchSafe s = true) {c : Nat} {r : Record} (hr : s.rec? c = some r)
    (b : Bool) : searchEnded c r.link b s (endSearch c b s) ∧ (endSearch c b s).rec? c = some { r with link := .none } := by
  have hset : ∀ d, d ≠ c → (setLink .none c s).rec? d = s.rec? d := fun d hd => by rw [rec?_setLink, if_neg hd]
  have hself : (setLink .none c s).rec? c = some { r with link := .none } := by rw [rec?_setLink, if_pos rfl, hr]; rfl
  rcases endSearch_cases c b s with ⟨hnone, _⟩ | ⟨r', hr', h⟩
  · rw [hr] at hnone; cases hnone
  obtain rfl : r = r' := Option.some.inj (hr.symm.trans hr')
  rcases h with ⟨hl, h⟩ | ⟨hl, h⟩ | ⟨u, hl, h⟩
  · rw [h, hl]
    exact ⟨⟨rfl, rfl, fun _ _ => rfl⟩, by rw [hr, ← hl]⟩
  · rw [h, hl]
    exact ⟨⟨rfl, setLink_units .., hset⟩, hself⟩
  · obtain ⟨_, hnodup, _, hqueue⟩ := searchSafe_elim hsafe
    rw [h, hl, searchEnded]
    obtain hq | ⟨d, rest, hq⟩ : s.queue = [] ∨ ∃ d rest, s.queue = d :: rest := by cases s.queue <;> simp
    · rw [freeUnit_idle ((setLink_queue ..).trans hq), hq]
      exact ⟨⟨by simp [hq], by simp, hset⟩, hself⟩
    · have hdmem : d ∈ s.queue := hq ▸ List.mem_cons_self
      have hd : d ∉ rest := (List.nodup_cons.1 (hq ▸ hnodup)).1
      have hdc : d ≠ c := fun h => not_mem_queue_of_link hsafe hr (by simp [hl]) (h ▸ hdmem)
      obtain ⟨rd, hrd, _⟩ := hqueue d hdmem
      rw [freeUnit_head ((setLink_queue ..).trans hq) hd ((hset d hdc).trans hrd), hq]
      refine ⟨⟨rfl, ⟨rd, hrd, tget_tset_same .., by simp⟩, fun e hec hed => ?_⟩, ?_⟩
      · exact (tget_tset_other hed _ _).trans (hset e hec)
      · exact (tget_tset_other hdc.symm _ _).trans hself

theorem searchEnded_congr {c : Nat} {l : SearchLink} {b : Bool} {s t t' : State} (hc : ∀ u, l = .searching u → c ∉ s.queue)
    (hq : t'.queue = t.queue) (hu : t'.units = t.units) (hrec : ∀ d, d ≠ c → t'.rec? d = t.rec? d)
    (h : searchEnded c l b s t) : searchEnded c l b s t' := by
  have hothers : (∀ d, d ≠ c → t.rec? d = s.rec? d) → ∀ d, d ≠ c → t'.rec? d = s.rec? d := fun hk d hd =>
    (hrec d hd).trans (hk d hd)
  unfold searchEnded at h ⊢
  rw [hq, hu]
  cases l with
  | none => exact ⟨h.1, h.2.1, hothers h.2.2⟩
  | queued => exact ⟨h.1, h.2.1, hothers h.2.2⟩
  | searching u =>
    have hcq := hc u rfl
    dsimp only at h ⊢
    obtain hsq | ⟨d, rest, hsq⟩ : s.queue = [] ∨ ∃ d rest, s.queue = d :: rest := by cases s.queue <;> simp
    · rw [hsq] at h ⊢
      exact ⟨h.1, h.2.1, hothers h.2.2⟩
    · rw [hsq] at h hcq ⊢
      obtain ⟨hqueue, ⟨rd, hrd, htd, hunits⟩, hrest⟩ := h
      have hdc : d ≠ c := fun hd => hcq (hd ▸ List.mem_cons_self)
      exact ⟨hqueue, ⟨rd, hrd, (hrec d hdc).trans htd, hunits⟩, fun e hec hed => (hrec e hec).trans (hrest e hec hed)⟩

/-! ### The effects of a moved placement (R37) -/

theorem sameAs_iff_not_movedFrom (old new : Windows) : new.sameAs old = true ↔ ¬movedFrom old new := by
  simp [Windows.sameAs, movedFrom]

theorem detailInto_eq_withDetail (policy : DetailPolicy) (d : Detail) (n : NoticeGroup) :
    detailInto policy d n = withDetail policy d n := by
  unfold detailInto withDetail
  cases n.detail with
  | none => rfl
  | some _ => cases policy <;> rfl

theorem tset_tset {α : Type} (k : Nat) (v w : α) (m : List (Nat × α)) : tset k v (tset k w m) = tset k v m := by
  induction m with
  | nil => simp [tset]
  | cons e t ih =>
    obtain ⟨j, x⟩ := e
    by_cases hk : k < j
    · simp [tset, hk]
    · by_cases hj : j = k
      · simp [tset, hj]
      · simp [tset, hk, hj, ih]

theorem setRec_setRec (c : Nat) (q r : Record) (s : State) : (s.setRec c q).setRec c r = s.setRec c r := by
  simp only [State.setRec, tset_tset]

theorem changeMain_track_acquire {s : State} {c : Nat} {r : Record} (hr : s.rec? c = some r) (hm : r.main = .track) (b : Bool) :
    changeMain .acquire c b s = s.setRec c { r with
      main := .acquire, conv := { r.conv with run := 0, deadline := 0, expiry := 0 }
      notes := withDetail s.settings.policy (.main .track .acquire s.stamp) r.notes } := by
  have henter : enterMain .acquire r =
      { r with main := .acquire, conv := { r.conv with run := 0, deadline := 0, expiry := 0 } } := by
    simp [enterMain, hm]
  rcases changeMain_cases .acquire c b s with ⟨hnone, _⟩ | ⟨r', hr', ⟨hm', _⟩ | ⟨_, h⟩⟩
  · rw [hr] at hnone; cases hnone
  · rw [hr] at hr'; cases hr'; rw [hm] at hm'; cases hm'
  · obtain rfl : r = r' := Option.some.inj (hr.symm.trans hr')
    rw [h, if_pos (show MainState.acquire.searchable = true from rfl), writeDetail, modRec_eq (rec?_setRec_same ..), setRec_setRec,
      detailInto_eq_withDetail, henter, hm]
    rfl

/-- What the convergence of a record becomes when a command has moved its windows from `old` (R37). -/
theorem relocationEffects_spec {s : State} (hrise : rising s.ctxs = true) {c : Nat} {r : Record} (hr : s.rec? c = some r)
    (old : Windows) (b : Bool) :
    ∃ q, relocationEffects c old b s = s.setRec c q ∧ q.wins = r.wins ∧
      (movedFrom old r.wins → r.main = .track → q = { r with
        main := .acquire, conv := { r.conv with run := 0, deadline := 0, expiry := 0 }
        notes := withDetail s.settings.policy (.main .track .acquire s.stamp) r.notes }) ∧
      (movedFrom old r.wins → r.main = .acquire → q = { r with conv := { r.conv with run := 0 } }) ∧
      (movedFrom old r.wins → r.main = .observe →
        q = { r with conv := { r.conv with run := 0, observeConverged := false } }) ∧
      (¬movedFrom old r.wins ∨ r.main = .held ∨ r.main = .cut → q = r) := by
  have hself : s = s.setRec c r := by
    rw [State.setRec, tset_of_tget hrise hr]
  unfold relocationEffects
  rw [hr]
  dsimp only
  by_cases hmoved : movedFrom old r.wins
  · rw [if_neg fun h => (sameAs_iff_not_movedFrom _ _).1 h hmoved]
    cases hm : r.main with
    | track => exact ⟨_, changeMain_track_acquire hr hm b, rfl, by simp, by simp, by simp, by simp [hmoved]⟩
    | acquire => exact ⟨_, rfl, rfl, by simp, by simp, by simp, by simp [hmoved]⟩
    | observe => exact ⟨_, rfl, rfl, by simp, by simp, by simp, by simp [hmoved]⟩
    | held => exact ⟨r, hself, rfl, by simp, by simp, by simp, by simp⟩
    | cut => exact ⟨r, hself, rfl, by simp, by simp, by simp, by simp⟩
  · rw [if_pos ((sameAs_iff_not_movedFrom _ _).2 hmoved)]
    exact ⟨r, hself, rfl, by simp [hmoved], by simp [hmoved], by simp [hmoved], by simp⟩

/-! ### AMEND WINDOWS -/

/-- The windows asked for lie in the span (R36). -/
def placesFit (span : Nat) (b1 l1 b2 l2 : Byte) : Prop :=
  1 ≤ l1.toNat ∧ b1.toNat + l1.toNat ≤ span ∧ (l2.toNat = 0 ∨ b2.toNat + l2.toNat ≤ span)

theorem secondPlace_any (b2 l2 : Byte) (p : Place → Bool) :
    (secondPlace b2 l2).any p = true ↔ l2.toNat ≠ 0 ∧ p (b2.toNat, l2.toNat) = true := by
  unfold secondPlace
  split <;> simp [*]

theorem secondPlace_length (b2 l2 : Byte) : ((secondPlace b2 l2).map (·.2)).getD 0 = l2.toNat := by
  unfold secondPlace
  split <;> simp [*]

/-- What AMEND WINDOWS answers once its checks are passed. -/
def amendWindowsAnswer (c : Nat) (t : State) : State × Reply :=
  match t.rec? c with
  | none => (t, answer [])
  | some q => (t, answer (windowSet q.wins ++ [nat8 q.segCount, q.main.code] ++ nat16 t.free.length))

theorem amendWindowsAnswer_eq {c : Nat} {t : State} {q : Record} (hq : t.rec? c = some q) :
    amendWindowsAnswer c t =
      (t, answer (windowSet q.wins ++ [nat8 q.wins.segs.length, q.main.code] ++ twoBytes t.free.length)) := by
  rw [amendWindowsAnswer, hq, nat16_eq_twoBytes]
  rfl

/-- The checks of R36, in their order. -/
theorem amendWindowsCmd_checks {hw slot b1 l1 b2 l2 : Byte} {s : State} {c : Nat} {r : Record} (hk : holdsKey s hw slot c r) :
    (¬placesFit r.id.span b1 l1 b2 l2 → amendWindowsCmd hw slot b1 l1 b2 l2 s = (s, refuse .range)) ∧
    (placesFit r.id.span b1 l1 b2 l2 → ¬(l2.toNat = 0 ∨ b1.toNat + l1.toNat - 1 < b2.toNat) →
      amendWindowsCmd hw slot b1 l1 b2 l2 s = (s, refuse .overlap)) ∧
    (placesFit r.id.span b1 l1 b2 l2 → (l2.toNat = 0 ∨ b1.toNat + l1.toNat - 1 < b2.toNat) →
      ¬l1.toNat + l2.toNat ≤ s.free.length + r.segCount → amendWindowsCmd hw slot b1 l1 b2 l2 s = (s, refuse .noRoom)) ∧
    (placesFit r.id.span b1 l1 b2 l2 → (l2.toNat = 0 ∨ b1.toNat + l1.toNat - 1 < b2.toNat) →
      l1.toNat + l2.toNat ≤ s.free.length + r.segCount → amendWindowsCmd hw slot b1 l1 b2 l2 s =
        amendWindowsAnswer c (amendWindowsAccepted c r (b1.toNat, l1.toNat) (secondPlace b2 l2) s)) := by
  rw [amendWindowsCmd, keyed_of_holdsKey hk]
  simp only [placesFit, secondPlace_any, secondPlace_length, Bool.or_eq_true, decide_eq_true_eq]
  refine ⟨fun h => ?_, fun h h' => ?_, fun h h' h'' => ?_, fun h h' h'' => ?_⟩
  · split
    · rfl
    · rw [if_pos (by omega)]
  · rw [if_neg (by omega), if_neg (by omega), if_pos (by omega)]
  · rw [if_neg (by omega), if_neg (by omega), if_neg (by omega), if_pos (by omega)]
  · rw [if_neg (by omega), if_neg (by omega), if_neg (by omega), if_neg (by omega)]
    rfl

theorem amendWindowsAccepted_spec {s : State} {c : Nat} {r : Record} (hr : s.rec? c = some r) (hsearch : searchSafe s = true)
    (hsegs : segmentsSafe s) (hpool : poolWf s.pool = true) {first : Place} {second : Option Place}
    (hfirst : first.1 + first.2 ≤ 64) (hsecond : ∀ x ∈ second, x.1 + x.2 ≤ 64)
    (hroom : first.2 + (second.map (·.2)).getD 0 ≤ s.free.length + r.segCount) {t : State}
    (ht : amendWindowsAccepted c r first second s = t) :
    ∃ v q, relocated r.wins first second (tapCoeff s.pool r.wins) s t v ∧ v.shortened = false ∧
      searchEnded c r.link false s t ∧ t.rec? c = some q ∧ q.wins = v ∧
      { t with ctxs := s.ctxs, free := s.free, pool := s.pool, queue := s.queue, units := s.units } = s ∧
      (movedFrom r.wins v → r.main = .track → q = { r with
        wins := v, main := .acquire, link := .none, conv := { r.conv with run := 0, deadline := 0, expiry := 0 }
        notes := withDetail s.settings.policy (.main .track .acquire s.stamp) r.notes }) ∧
      (movedFrom r.wins v → r.main = .acquire → q = { r with wins := v, link := .none, conv := { r.conv with run := 0 } }) ∧
      (movedFrom r.wins v → r.main = .observe →
        q = { r with wins := v, link := .none, conv := { r.conv with run := 0, observeConverged := false } }) ∧
      (¬movedFrom r.wins v ∨ r.main = .held ∨ r.main = .cut → q = { r with wins := v, link := .none }) := by
  obtain ⟨hrise, _, _, _⟩ := searchSafe_elim hsearch
  have hnodup : (s.free ++ r.wins.segs).Nodup := (List.nodup_append.1 (nodup_segments hsegs hr)).1
  obtain ⟨hended, hrec1⟩ := searchEnded_endSearch hsearch hr false
  have hrise1 := (keepsWindows_endSearch c false s).rises hrise
  unfold amendWindowsAccepted at ht
  dsimp only at ht
  have hfree1 := endSearch_free c false s
  have hpool1 := endSearch_pool c false s
  have hstamp1 := endSearch_stamp c false s
  have hsettings1 := endSearch_settings c false s
  generalize hs1 : endSearch c false s = s1 at *
  obtain ⟨v, hrec2, hshort, hrelocated⟩ := relocated_full (src := allTaps s1.pool r.wins) (source := tapCoeff s.pool r.wins)
    hrec1 (by rw [hfree1]; exact hnodup) (fun k hk => by rw [hpool1]; exact getD_allTaps hpool r.wins hk) hfirst hsecond
    (by rw [hfree1]; exact hroom)
  have hrise2 := (keepsSegments_relocate c first second (allTaps s1.pool r.wins) s1).kept hrise1 |>.1
  obtain ⟨q, hq, hqw, htrack, hacquire, hobserve, hsame⟩ := relocationEffects_spec hrise2 hrec2 r.wins false
  rw [hq] at ht
  subst ht
  rw [relocate_settings, relocate_stamp, hsettings1, hstamp1] at htrack
  refine ⟨v, q, relocated_congr hfree1.symm hpool1.symm rfl rfl hrelocated, hshort, ?_, rec?_setRec_same .., hqw, ?_, htrack,
    hacquire, hobserve, hsame⟩
  · refine searchEnded_congr (fun u hu => not_mem_queue_of_link hsearch hr (by simp [hu])) ?_ ?_ (fun d hd => ?_) hended
    · simp
    · simp
    · rw [rec?_setRec_other hd, rec?_relocate_other hd]
  · subst hs1
    apply state_ext <;> simp

/-- Settles O43. -/
theorem amendWindows : Obligations.AmendWindows := by
  intro hw slot b1 l1 b2 l2 s c r hk hsearch hsegs hpool _ hspan w second fits ordered room refusal
  obtain ⟨hrange, hoverlap, hnoRoom, haccepted⟩ := amendWindowsCmd_checks (b1 := b1) (l1 := l1) (b2 := b2) (l2 := l2) hk
  refine ⟨fun h => congrArg _ (command_refuses (hrange h)),
    fun h h' => congrArg _ (command_refuses (hoverlap h fun ho => h' ⟨h, ho⟩)),
    fun ⟨h, h'⟩ h'' => congrArg _ (command_refuses (hnoRoom h h' h'')), fun ⟨h, h'⟩ h'' => ?_⟩
  have ⟨_, _, _, hr⟩ := hk
  have ⟨_, hfirst, hsecond⟩ := h
  have hplaces : ∀ x ∈ second, x.1 + x.2 ≤ 64 := fun x hx => by
    dsimp only [second] at hx
    split at hx
    · cases hx
    · obtain rfl := Option.some.inj hx
      dsimp only
      omega
  have hlen : (second.map (·.2)).getD 0 = l2.toNat := secondPlace_length b2 l2
  obtain ⟨v, q, hrelocated, hshort, hended, hq, hqw, hframe, hclauses⟩ :=
    amendWindowsAccepted_spec (first := (b1.toNat, l1.toNat)) (second := second) hr hsearch hsegs hpool
      (Nat.le_trans hfirst hspan) hplaces (hlen ▸ h'') rfl
  refine ⟨_, v, q, congrArg _ (command_responds ((haccepted h h' h'').trans ?_)), hrelocated, hshort, hended, hq, hframe,
    hclauses⟩
  rw [← hqw]
  exact amendWindowsAnswer_eq hq

end Sys2Proof.TapSegments


/-! PROOFS. The coefficient update of a boundary (R73 to R77). -/

namespace Sys2Proof.TapSegments

open Sys2Proof Sys2Proof.Machine

/-! ### Correlations -/

theorem dot_eq_sum (cs : List (BitVec 16)) (xs : List Sample) :
    dot cs xs = ((List.range cs.length).map fun n => (cs.getD n 0).toInt * (xs.getD n 0).toInt).sum := by
  induction cs generalizing xs with
  | nil => cases xs <;> rfl
  | cons c cs ih =>
    cases xs with
    | nil => simp [dot]
    | cons x xs => simp [dot, ih, List.range_succ_eq_map, Function.comp_def]

theorem getElem?_correlations (e h : List Sample) {n k : Nat} (hk : k < n) :
    (correlations e h n)[k]? = some (dot e (h.drop k)) := by
  induction n generalizing h k with
  | zero => omega
  | succ n ih =>
    cases k with
    | zero => rfl
    | succ k =>
      rw [correlations, List.getElem?_cons_succ, ih _ (by omega), ← List.drop_one, List.drop_drop, Nat.add_comm]

/-- The correlation of a block's eight residuals, oldest first, with the reference that each saw at delay `k` (R73). -/
theorem dot_reverse_eq_sum {e : List Sample} (he : e.length = 8) (h : List Sample) (k : Nat) :
    dot e.reverse (h.drop k) = ((List.range 8).map fun n => (e.getD n 0).toInt * (h.getD (k + 7 - n) 0).toInt).sum := by
  have hrange : (List.range 8).reverse = (List.range 8).map fun m => 7 - m := rfl
  rw [dot_eq_sum, List.length_reverse, he, ← List.sum_reverse, ← List.map_reverse, hrange, List.map_map]
  refine congrArg List.sum (List.map_congr_left fun n hn => ?_)
  have hn : n < 8 := List.mem_range.1 hn
  have hresid : e.reverse.getD (7 - n) 0 = e.getD n 0 := by
    rw [List.getD_eq_getElem?_getD, List.getElem?_reverse (by omega), he, List.getD_eq_getElem?_getD]
    congr 2
    omega
  have hhist : (h.drop k).getD (7 - n) 0 = h.getD (k + 7 - n) 0 := by
    rw [List.getD_eq_getElem?_getD, List.getElem?_drop, List.getD_eq_getElem?_getD]
    congr 2
    omega
  simp only [Function.comp_apply, hresid, hhist]

/-! ### One record's update -/

/-- The coefficients `cs` of a window of base `base` after the update of its record (R73 to R77). -/
def updatedRun (p : Profile) (h : List Sample) (r : Record) (base : Nat) (cs : List Coeff) : List Coeff :=
  List.zipWith (stepCoeff (stepSize p r) (normaliser p r)) cs
    (correlations r.blk.resid.reverse (h.drop (segTaps * base)) cs.length)

theorem adaptRecord_eq (p : Profile) (h : List Sample) (r : Record) (pool : List (Nat × List Coeff)) :
    adaptRecord p h r pool =
      r.wins.list.foldl (fun q w => writeRun q w.segs (updatedRun p h r w.base (windowCoeffs pool w))) pool := rfl

theorem segs_eq_flatMap (w : Windows) : w.segs = w.list.flatMap (·.segs) := by
  obtain ⟨first, second, short⟩ := w
  cases second with
  | none => simp [Windows.segs, Windows.list]
  | some x => simp [Windows.segs, Windows.list]

section
variable (run : Window → List Coeff)

theorem segRead_writeWindows_other {ws : List Window} {g : Nat} (hg : g ∉ ws.flatMap (·.segs))
    (pool : List (Nat × List Coeff)) : segRead (ws.foldl (fun q w => writeRun q w.segs (run w)) pool) g = segRead pool g := by
  induction ws generalizing pool with
  | nil => rfl
  | cons x ws ih =>
    obtain ⟨hx, hws⟩ := not_or.1 (mt List.mem_append.2 (List.flatMap_cons ▸ hg))
    rw [List.foldl_cons, ih hws, segRead_writeRun_other _ hx]

theorem segRead_writeWindows {ws : List Window} (hnodup : (ws.flatMap (·.segs)).Nodup) {w : Window} (hw : w ∈ ws) {i g : Nat}
    (hi : w.segs[i]? = some g) (pool : List (Nat × List Coeff)) :
    segRead (ws.foldl (fun q w => writeRun q w.segs (run w)) pool) g = segSlice (run w) i := by
  induction ws generalizing pool with
  | nil => cases hw
  | cons x ws ih =>
    obtain ⟨hx, hws, hne⟩ := List.nodup_append.1 (List.flatMap_cons ▸ hnodup)
    rw [List.foldl_cons]
    rcases List.mem_cons.1 hw with rfl | hw
    · have hg : g ∉ ws.flatMap (·.segs) := fun hg => hne g (List.mem_of_getElem? hi) g hg rfl
      rw [segRead_writeWindows_other run hg, segRead_writeRun hx hi]
    · exact ih hws hw _

end

/-! ### The update of the selected records -/

/-- The pool after the updates of the records of a table that are selected. -/
def adaptTable (P : Record → Profile) (H : Record → List Sample) (sel : List Nat) (m : List (Nat × Record))
    (pool : List (Nat × List Coeff)) : List (Nat × List Coeff) :=
  m.foldl (fun q e => if e.1 ∈ sel then adaptRecord (P e.2) (H e.2) e.2 q else q) pool

theorem adapt_eq (s : State) (sel : List Nat) : s.adapt sel = adaptTable s.profileOf s.histOf sel s.ctxs s.pool := rfl

section
variable (P : Record → Profile) (H : Record → List Sample) (sel : List Nat)

theorem segRead_adaptEntry_other (e : Nat × Record) {g : Nat} (hg : g ∉ e.2.wins.segs) (pool : List (Nat × List Coeff)) :
    segRead (if e.1 ∈ sel then adaptRecord (P e.2) (H e.2) e.2 pool else pool) g = segRead pool g := by
  split
  · rw [adaptRecord_eq]
    exact segRead_writeWindows_other _ (segs_eq_flatMap _ ▸ hg) pool
  · rfl

theorem segRead_adaptTable_other {m : List (Nat × Record)} {g : Nat} (hg : g ∉ m.flatMap fun e => e.2.wins.segs)
    (pool : List (Nat × List Coeff)) : segRead (adaptTable P H sel m pool) g = segRead pool g := by
  induction m generalizing pool with
  | nil => rfl
  | cons e m ih =>
    obtain ⟨he, hm⟩ := not_or.1 (mt List.mem_append.2 (List.flatMap_cons ▸ hg))
    exact (ih hm _).trans (segRead_adaptEntry_other P H sel e he pool)

/-- A segment of a record in the table: moved by the record's own update if it is selected, kept otherwise. -/
theorem segRead_adaptTable {m : List (Nat × Record)} (hnodup : (m.flatMap fun e => e.2.wins.segs).Nodup) {c : Nat} {r : Record}
    (hr : (c, r) ∈ m) {w : Window} (hw : w ∈ r.wins.list) {i g : Nat} (hi : w.segs[i]? = some g)
    (pool : List (Nat × List Coeff)) :
    segRead (adaptTable P H sel m pool) g =
      if c ∈ sel then segSlice (updatedRun (P r) (H r) r w.base (windowCoeffs pool w)) i else segRead pool g := by
  have hsegs : ∀ k ∈ w.segs, k ∈ r.wins.segs := fun k hk => segs_eq_flatMap r.wins ▸ List.mem_flatMap.2 ⟨w, hw, hk⟩
  have hg : g ∈ w.segs := List.mem_of_getElem? hi
  induction m generalizing pool with
  | nil => cases hr
  | cons e m ih =>
    obtain ⟨he, hm, hne⟩ := List.nodup_append.1 (List.flatMap_cons ▸ hnodup)
    rcases List.mem_cons.1 hr with rfl | hr
    · have hlater : g ∉ m.flatMap fun e => e.2.wins.segs := fun h => hne g (hsegs g hg) g h rfl
      refine (segRead_adaptTable_other P H sel hlater _).trans ?_
      dsimp only
      split
      · rw [adaptRecord_eq]
        exact segRead_writeWindows (fun w => updatedRun (P r) (H r) r w.base (windowCoeffs pool w)) (segs_eq_flatMap _ ▸ he) hw hi
          pool
      · rfl
    · have hother : ∀ k ∈ w.segs, k ∉ e.2.wins.segs := fun k hk h =>
        hne k h k (List.mem_flatMap.2 ⟨(c, r), hr, hsegs k hk⟩) rfl
      have hkept := fun k hk => segRead_adaptEntry_other P H sel e (hother k hk) pool
      refine (ih hm hr _).trans ?_
      have hcoeffs : windowCoeffs (if e.1 ∈ sel then adaptRecord (P e.2) (H e.2) e.2 pool else pool) w = windowCoeffs pool w :=
        List.flatMap_congr hkept
      rw [hcoeffs, hkept g hg]

end

/-! ### The coefficients of a segment -/

/-- One coefficient of a window after its record's update (R76, R77). -/
theorem getD_updatedRun {pool : List (Nat × List Coeff)} (hpool : poolWf pool = true) (p : Profile) (h : List Sample)
    {r : Record} (hresid : r.blk.resid.length = 8) {w : Window} {i g j : Nat} (hi : w.segs[i]? = some g) (hj : j < 16) :
    (segSlice (updatedRun p h r w.base (windowCoeffs pool w)) i).getD j 0 =
      stepCoeff (stepSize p r) (normaliser p r) ((segRead pool g).getD j 0)
        ((List.range 8).map fun n =>
          (r.blk.resid.getD n 0).toInt * (h.getD (16 * (w.base + i) + j + 7 - n) 0).toInt).sum := by
  have hcoeff : (windowCoeffs pool w)[segTaps * i + j]? = some ((segRead pool g).getD j 0) := by
    rw [windowCoeffs, getElem?_flatMap_blocks (segRead_length hpool) _ _ hj, hi]
    have hj' : j < (segRead pool g).length := (segRead_length hpool g).symm ▸ hj
    exact (List.getElem?_eq_getElem hj').trans (congrArg some (List.getD_eq_getElem _ _ hj').symm)
  have hlt := (List.getElem?_eq_some_iff.1 hcoeff).1
  have htap : segTaps * w.base + (segTaps * i + j) = 16 * (w.base + i) + j := by simp only [segTaps]; omega
  rw [getD_segSlice _ _ hj, List.getD_eq_getElem?_getD, updatedRun, List.getElem?_zipWith, hcoeff, getElem?_correlations _ _ hlt,
    List.drop_drop, htap, dot_reverse_eq_sum hresid]
  rfl

theorem stepSize_eq (p : Profile) (r : Record) :
    stepSize p r = if r.main = .track ∧ (r.div.band = .sound ∨ r.div.band = .warned) then p.muTrack else p.muAcq := by
  unfold stepSize
  cases r.div.band <;> simp

theorem blockBoundary_pool (s : State) : (blockBoundary s).pool = s.adapt s.selection := by
  unfold blockBoundary
  exact foldl_keeps (fun t : State => t.pool) _ (by simp) _ _

theorem takes_blockBoundary {s : State} (h : 8 ≤ s.phase) : takes .blockBoundary s (blockBoundary (settle s)) := by
  have hdue : s.boundaryDue = true := by simpa [State.boundaryDue] using h
  exact congrArg Host.Outcome.next (if_pos hdue)

/-- Settles O18. -/
theorem coefficientUpdate : Obligations.CoefficientUpdate := by
  intro s hphase hsegs hpool
  refine ⟨_, takes_blockBoundary hphase, ?_⟩
  intro u
  rw [blockBoundary_pool, adapt_eq]
  obtain ⟨hrise, hperm⟩ := hsegs
  obtain ⟨_, hheld, hdisjoint⟩ := List.nodup_append.1 (hperm.nodup_iff.2 List.nodup_range)
  refine ⟨fun g hg => segRead_adaptTable_other _ _ _ (fun h => hdisjoint g hg g h rfl) _, ?_⟩
  intro c r w i g j hr hw hi hj f k corr mu d old
  have hread := segRead_adaptTable u.profileOf u.histOf u.selection hheld (mem_of_tget hr) hw hi u.pool
  refine ⟨fun hc => by rw [hread, if_neg hc], fun hc hresid => ?_⟩
  rw [hread, if_pos hc, getD_updatedRun hpool _ _ hresid hi hj, stepSize_eq]
  rfl

end Sys2Proof.TapSegments


/-! PROOFS. What no step but a FRAME changes of a block's windows: a counterexample in a state that numbers a context twice. -/

namespace Sys2Proof.TapSegments

open Sys2Proof Sys2Proof.Machine

/-! ### A context table with one number twice -/

/-- A record as BIND fills it, with nothing pending and no windows in force for its block. -/
def quietRecord : Record := bindRecord 0 0 0 0 0 (profilePowerOn false) [] false false

/-- The same with a lost flag to be fetched and a window in force for its block. -/
def lostRecord : Record :=
  { quietRecord with
    notes := { quietRecord.notes with lost := true }
    blk := { quietRecord.blk with model := [(0, [])] } }

/-- Context 0 stands in the table twice, so that `rec?` reads the first entry, and FETCH NOTICE finds the second. -/
def doubled : State := { State.reset with ctxs := [(0, quietRecord), (0, lostRecord)] }

/-- FETCH NOTICE clears the notices of the entry it found, and writes that record over the first entry. -/
theorem fetchNoticeCmd_doubled :
    fetchNoticeCmd doubled = (doubled.setRec 0 (clearNotes lostRecord), answer (noticeBody 0 lostRecord)) := rfl

theorem takes_fetchNotice_doubled :
    takes .fetchNotice doubled
      (responds 3 false false false (noticeBody 0 lostRecord) (doubled.setRec 0 (clearNotes lostRecord))) := by
  refine congrArg _ (command_responds ?_)
  rw [settle_of_due_nil (s := doubled) rfl]
  exact fetchNoticeCmd_doubled

/-- Refutes O5: its second clause is stated for every state, also for one whose context table holds a number twice. There FETCH
NOTICE writes the record of the second entry, with its `blk.model`, over the first. No run from power-on meets such a state, since
every step keeps the numbers rising (`keepsSegments_exec`). -/
theorem not_workedFrame : ¬Obligations.WorkedFrame := by
  rintro ⟨_, hkept, _⟩
  have hmodel := hkept .fetchNotice doubled _ 0 quietRecord (clearNotes lostRecord) (by simp) takes_fetchNotice_doubled rfl rfl
  exact absurd hmodel (List.cons_ne_nil _ _)

end Sys2Proof.TapSegments


/-! PROOFS. What the events of a block boundary and the commands can do to a state, said once: as runs of elementary moves, from
which each invariant of this family is derived by one case split. -/

namespace Sys2Proof.FrameTiming

open Sys2Proof Sys2Proof.Machine Sys2Proof.TapSegments

/-! ### Moves: what the events of a boundary are made of -/

/-- An elementary change by an event of a boundary or a change of main state. `b` says whether a search that starts in it has its
first block in the block now open (R114). A record keeps highway, block in progress and, but in the last two, its search link. -/
inductive Move (b : Bool) : State → State → Prop where
  | record {s : State} {c : Nat} {r q : Record} (hr : s.rec? c = some r) (hhw : q.id.hw = r.id.hw) (hblk : q.blk = r.blk)
      (hlink : q.link = r.link) : Move b s (s.setRec c q)
  | owed {s : State} (r : Route) : Move b s (s.owe r)
  | pool {s : State} {p : List (Nat × List Coeff)} (h : poolWf s.pool = true → poolWf p = true) : Move b s { s with pool := p }
  | stamped {s : State} (n : BitVec 16) : Move b s { s with prescale := 0, stamp := n }
  | due {s : State} (d : List DueEvent) (h : b = true) : Move b s { s with due := d }
  | requested {s : State} (c : Nat) : Move b s (requestSearch c b s)
  | ended {s : State} (c : Nat) : Move b s (endSearch c b s)

/-- A run of moves. -/
abbrev Moves (b : Bool) : State → State → Prop := Relation.ReflTransGen (Move b)

section
variable {b : Bool}

theorem moves_setRec {s : State} {c : Nat} {r q : Record} (hr : s.rec? c = some r) (hhw : q.id.hw = r.id.hw)
    (hblk : q.blk = r.blk) (hlink : q.link = r.link) : Moves b s (s.setRec c q) := .single (.record hr hhw hblk hlink)

theorem moves_modRec {f : Record → Record} (hhw : ∀ r, (f r).id.hw = r.id.hw) (hblk : ∀ r, (f r).blk = r.blk)
    (hlink : ∀ r, (f r).link = r.link) (c : Nat) (s : State) : Moves b s (s.modRec c f) := by
  rcases modRec_cases c f s with ⟨_, h⟩ | ⟨r, hr, h⟩ <;> rw [h]
  exact moves_setRec hr (hhw r) (hblk r) (hlink r)

theorem moves_foldl {α : Type} {f : State → α → State} (hf : ∀ t a, Moves b t (f t a)) (l : List α) (s : State) :
    Moves b s (l.foldl f s) := by
  induction l generalizing s with
  | nil => exact .refl
  | cons a l ih => exact (hf s a).trans (ih _)

theorem moves_raise (k : Kind) (c : Nat) (s : State) : Moves b s (raise k c s) := by
  rcases raise_cases k c s with ⟨_, h⟩ | ⟨r, hr, ⟨_, h⟩ | ⟨_, h⟩⟩ <;> rw [h]
  refine .tail ?_ (.owed _)
  exact moves_setRec hr rfl rfl rfl

theorem moves_writeDetail (c : Nat) (d : Detail) (s : State) : Moves b s (writeDetail c d s) :=
  moves_modRec (by intro _; rfl) (by intro _; rfl) (by intro _; rfl) c s

theorem moves_changeMain (m : MainState) (c : Nat) (s : State) : Moves b s (changeMain m c b s) := by
  rcases changeMain_cases m c b s with ⟨_, h⟩ | ⟨r, hr, ⟨_, h⟩ | ⟨_, h⟩⟩ <;> rw [h]
  have hset : Moves b s (s.setRec c (enterMain m r)) := moves_setRec hr rfl rfl rfl
  refine Relation.ReflTransGen.trans ?_ (moves_writeDetail ..)
  split
  · exact hset
  · exact hset.tail (.ended c)

theorem moves_changeTone (x : ToneSub) (c : Nat) (s : State) : Moves b s (changeTone x c s) := by
  unfold changeTone
  cases hr : s.rec? c with
  | none => exact .refl
  | some r =>
    have hset : Moves b s (s.setRec c { r with tone := { r.tone with sub := x, release := 0 } }) := moves_setRec hr rfl rfl rfl
    exact (hset.trans (moves_raise ..)).trans (moves_writeDetail ..)

theorem moves_relocationEffects (c : Nat) (w : Windows) (s : State) : Moves b s (relocationEffects c w b s) := by
  unfold relocationEffects
  cases hr : s.rec? c with
  | none => exact .refl
  | some r =>
    dsimp only
    split
    · exact .refl
    · cases r.main with
      | acquire | observe => exact moves_setRec hr rfl rfl rfl
      | track => exact moves_changeMain ..
      | held | cut => exact .refl

end

/-! ### The events -/

theorem moves_takeConvergence (c : Nat) (s : State) : Moves true s (takeConvergence c s) := by
  unfold takeConvergence
  cases hr : s.rec? c with
  | none => exact .refl
  | some r =>
    dsimp only
    cases r.main with
    | acquire => exact (moves_changeMain ..).trans (moves_raise ..)
    | observe => exact moves_setRec hr rfl rfl rfl
    | track | held | cut => exact .refl

theorem moves_takeExpiry (c : Nat) (s : State) : Moves true s (takeExpiry c s) := by
  unfold takeExpiry
  cases hr : s.rec? c with
  | none => exact .refl
  | some r =>
    have hset : ∀ n, Moves true s (s.setRec c { r with conv := { r.conv with deadline := 0, expiry := n } }) := fun n =>
      moves_setRec hr rfl rfl rfl
    dsimp only
    split
    · split
      · exact ((hset 1).trans (moves_raise ..)).tail (.requested c)
      · exact (hset 2).trans (moves_raise ..)
      · exact moves_setRec hr rfl rfl rfl
    · exact .refl

theorem moves_takeCut (c : Nat) (s : State) : Moves true s (takeCut c s) := by
  unfold takeCut
  cases hr : s.rec? c with
  | none => exact .refl
  | some r =>
    have hset : Moves true s (s.setRec c (cutFields r)) := moves_setRec hr rfl rfl rfl
    have hpool : Moves true s { s.setRec c (cutFields r) with pool := zeroWindows s.pool r.wins } :=
      hset.tail (.pool fun h => poolWf_zeroWindows h r.wins)
    dsimp only
    split
    · exact (hpool.trans (moves_changeMain ..)).trans (moves_raise ..)
    · exact .refl

theorem moves_takeRecovery (c : Nat) (s : State) : Moves true s (takeRecovery c s) := by
  unfold takeRecovery
  cases hr : s.rec? c with
  | none => exact .refl
  | some r =>
    have hset : Moves true s (s.setRec c { r with div := soundGroup }) := moves_setRec hr rfl rfl rfl
    dsimp only
    split
    · cases (s.profileOf r).recovery with
      | auto => exact ((hset.trans (moves_changeMain ..)).tail (.requested c)).trans (moves_raise ..)
      | holdAfter => exact (hset.trans (moves_changeMain ..)).trans (moves_raise ..)
      | stay | holdAtCut => exact .refl
    · exact .refl

theorem moves_takeLevel (c : Nat) (d : Dir) (s : State) : Moves true s (takeLevel c d s) :=
  (moves_modRec (fun _ => by cases d <;> rfl) (fun _ => by cases d <;> rfl) (fun _ => by cases d <;> rfl) c s).trans
    (moves_raise ..)

theorem moves_windowEndOff {c : Nat} {r : Record} {s : State} (hr : s.rec? c = some r) : Moves true s (windowEndOff c r s) := by
  unfold windowEndOff
  split
  · exact moves_setRec hr rfl rfl rfl
  · refine Relation.ReflTransGen.trans ?_ (moves_changeTone ..)
    exact moves_setRec hr rfl rfl rfl

theorem moves_countRelease (p : Profile) {c : Nat} {r : Record} {s : State} (hr : s.rec? c = some r) (x : ToneGroup) :
    Moves true s (windowEndOn.countRelease p c r s x) := by
  unfold windowEndOn.countRelease
  generalize (if quietWindow p.wRel r.tone = true then min 25 (x.release + 1) else 0) = n
  have hset : Moves true s (s.setRec c { r with tone := { x with release := n } }) := moves_setRec hr rfl rfl rfl
  dsimp only
  split
  · exact hset.tail (.due _ rfl)
  · exact hset

theorem moves_windowEndOn (p : Profile) {c : Nat} {r : Record} {s : State} (hr : s.rec? c = some r) :
    Moves true s (windowEndOn p c r s) := by
  unfold windowEndOn
  have hset : ∀ x, Moves true s (s.setRec c { r with tone := x }) := fun x => moves_setRec hr rfl rfl rfl
  cases r.tone.sub with
  | none =>
    dsimp only
    split
    · exact (hset _).tail (.due _ rfl)
    · exact hset _
  | nlpOff =>
    dsimp only
    split
    · exact (hset _).trans (moves_changeTone ..)
    · exact moves_countRelease p hr _
  | bypass => exact moves_countRelease p hr _

theorem moves_takeWindowEnd (c : Nat) (s : State) : Moves true s (takeWindowEnd c s) := by
  unfold takeWindowEnd
  cases hr : s.rec? c with
  | none => exact .refl
  | some r =>
    dsimp only
    split
    · exact moves_windowEndOn _ hr
    · exact moves_windowEndOff hr

theorem moves_takeToneEntry (c : Nat) (s : State) : Moves true s (takeToneEntry c s) := by
  unfold takeToneEntry
  cases s.rec? c with
  | none => exact .refl
  | some r =>
    dsimp only
    split
    · exact moves_changeTone ..
    · exact .refl

theorem moves_takeRelease (c : Nat) (s : State) : Moves true s (takeRelease c s) := by
  unfold takeRelease
  cases hr : s.rec? c with
  | none => exact .refl
  | some r =>
    dsimp only
    split
    · exact .refl
    · refine Relation.ReflTransGen.trans ?_ (moves_changeTone ..)
      exact moves_setRec hr rfl rfl rfl

theorem moves_takeEvent (e : DueEvent) (s : State) : Moves true s (takeEvent e s) := by
  cases e with
  | convergence c => exact moves_takeConvergence c s
  | expiry c => exact moves_takeExpiry c s
  | cut c => exact moves_takeCut c s
  | recovery c => exact moves_takeRecovery c s
  | level c d => exact moves_takeLevel c d s
  | noiseFloorRise c => exact moves_modRec (by intro _; rfl) (by intro _; rfl) (by intro _; rfl) c s
  | stampAdvance => exact .single (.stamped _)
  | windowEnd c => exact moves_takeWindowEnd c s
  | toneEntry c => exact moves_takeToneEntry c s
  | release c => exact moves_takeRelease c s

theorem moves_settle (s : State) : Moves true s (settle s) :=
  settle_induction (P := Moves true s) (fun _ h => h.tail (.due _ rfl)) (fun e t h => h.trans (moves_takeEvent e t)) .refl

theorem moves_takeDue (e : DueEvent) (s : State) : Moves true s (takeDue e s) := by
  unfold takeDue
  split
  · exact (Relation.ReflTransGen.single (.due _ rfl)).trans (moves_takeEvent ..)
  · exact .refl

/-! ### Edits: what a move, a hand-off and a command are made of -/

/-- An elementary change of one table or field. `b` is as in `Move`. -/
inductive Edit (b : Bool) : State → State → Prop where
  | record {s : State} {c : Nat} {r q : Record} (hr : (c, r) ∈ s.ctxs) (hhw : q.id.hw = r.id.hw) (hblk : q.blk = r.blk) :
      Edit b s (s.setRec c q)
  | bound {s : State} {c : Nat} {q : Record} (hc : s.rec? c = none) (hhw : s.enabled q.id.hw = true)
      (hblk : q.blk.started = false) : Edit b s (s.setRec c q)
  | owed {s : State} (r : Route) : Edit b s (s.owe r)
  | pool {s : State} {p : List (Nat × List Coeff)} (h : poolWf s.pool = true → poolWf p = true) : Edit b s { s with pool := p }
  | stamped {s : State} (n : BitVec 16) : Edit b s { s with prescale := 0, stamp := n }
  | due {s : State} (d : List DueEvent) (h : b = true) : Edit b s { s with due := d }
  | searching {s : State} {c : Nat} {r : Record} (u n : Nat) (hr : s.rec? c = some r) :
      Edit b s { s with units := tset u (freshUnit c n b) s.units }
  | idle {s : State} (u : Nat) : Edit b s { s with units := tdel u s.units }
  | rest {s t : State} (h : { t with hwKinds := s.hwKinds, index := s.index, free := s.free, queue := s.queue
                                     profiles := s.profiles, resp := s.resp, linkOut := s.linkOut } = s) : Edit b s t

/-- A run of edits. -/
abbrev Edits (b : Bool) : State → State → Prop := Relation.ReflTransGen (Edit b)

section
variable {b : Bool}

theorem edits_rest {s t : State} (h : { t with hwKinds := s.hwKinds, index := s.index, free := s.free, queue := s.queue
                                               profiles := s.profiles, resp := s.resp, linkOut := s.linkOut } = s) :
    Edits b s t := .single (.rest h)

theorem edits_setRec {s : State} {c : Nat} {r q : Record} (hr : s.rec? c = some r) (hhw : q.id.hw = r.id.hw)
    (hblk : q.blk = r.blk) : Edits b s (s.setRec c q) := .single (.record (mem_of_tget hr) hhw hblk)

theorem edits_modRec {f : Record → Record} (hhw : ∀ r, (f r).id.hw = r.id.hw) (hblk : ∀ r, (f r).blk = r.blk) (c : Nat)
    (s : State) : Edits b s (s.modRec c f) := by
  rcases modRec_cases c f s with ⟨_, h⟩ | ⟨r, hr, h⟩ <;> rw [h]
  exact edits_setRec hr (hhw r) (hblk r)

theorem edits_setLink (l : SearchLink) (c : Nat) (s : State) : Edits b s (setLink l c s) :=
  edits_modRec (by intro _; rfl) (by intro _; rfl) c s

theorem edits_startSearch (u c : Nat) (s : State) : Edits b s (startSearch u c b s) := by
  cases hr : s.rec? c with
  | none => simpa [startSearch, hr] using .refl
  | some r =>
    rw [startSearch_eq hr]
    have hset : Edits b s (s.setRec c { r with link := .searching u }) := edits_setRec hr rfl rfl
    exact (hset.tail (.searching u r.id.span (rec?_setRec_same ..))).tail (.rest rfl)

theorem edits_freeUnit (u : Nat) (s : State) : Edits b s (freeUnit u b s) := by
  have hidle : Edits b s { s with units := tdel u s.units } := .single (.idle u)
  rcases freeUnit_cases u b s with ⟨_, h⟩ | ⟨c, _, _, h⟩ <;> rw [h]
  · exact hidle
  · exact hidle.trans (edits_startSearch ..)

theorem edits_endSearch (c : Nat) (s : State) : Edits b s (endSearch c b s) := by
  rcases endSearch_cases c b s with ⟨_, h⟩ | ⟨r, _, ⟨_, h⟩ | ⟨_, h⟩ | ⟨u, _, h⟩⟩ <;> rw [h]
  · exact (edits_setLink .none c s).tail (.rest rfl)
  · exact (edits_setLink .none c s).trans (edits_freeUnit ..)

theorem edits_requestSearch (c : Nat) (s : State) : Edits b s (requestSearch c b s) := by
  rcases requestSearch_cases c b s with h | ⟨r, _, _, _, ⟨u, _, h⟩ | ⟨_, h⟩⟩ <;> rw [h]
  · exact edits_startSearch u c s
  · exact (edits_setLink .queued c s).tail (.rest rfl)

theorem edits_of_move {s t : State} (h : Move b s t) : Edits b s t := by
  cases h with
  | record hr hhw hblk _ => exact edits_setRec hr hhw hblk
  | owed r => exact .single (.owed r)
  | pool h => exact .single (.pool h)
  | stamped n => exact .single (.stamped n)
  | due d h => exact .single (.due d h)
  | requested c => exact edits_requestSearch c s
  | ended c => exact edits_endSearch c s

theorem edits_of_moves {s t : State} (h : Moves b s t) : Edits b s t := by
  induction h with
  | refl => exact .refl
  | tail _ hmove ih => exact ih.trans (edits_of_move hmove)

theorem edits_raise (k : Kind) (c : Nat) (s : State) : Edits b s (raise k c s) := edits_of_moves (moves_raise k c s)

/-! ### The end of a search -/

theorem edits_relocate (c : Nat) (first : Place) (second : Option Place) (src : List Coeff) (s : State) :
    Edits b s (relocate c first second src s) := by
  cases hr : s.rec? c with
  | none => simpa [relocate, hr] using .refl
  | some r =>
    have hset : ∀ w, Edits b s (s.setRec c { r with wins := w }) := fun w => edits_setRec hr rfl rfl
    rcases hg : grant (s.free ++ r.wins.segs).length first second with ⟨n, keep, short⟩
    cases keep with
    | false =>
      rw [relocate_first hr hg]
      exact ((hset _).tail (.pool fun h => poolWf_writeRun h _ _)).tail (.rest rfl)
    | true =>
      cases second with
      | none =>
        have := grant_none_keep (s.free ++ r.wins.segs).length first
        rw [hg] at this
        cases this
      | some w =>
        rw [relocate_both hr hg]
        exact ((hset _).tail (.pool fun h => poolWf_writeRun (poolWf_writeRun h _ _) _ _)).tail (.rest rfl)

theorem edits_handOff (un : SearchUnit) (s : State) : Edits b s (handOff un b s) := by
  unfold handOff
  cases hr : s.rec? un.ctx with
  | none => exact .refl
  | some r =>
    dsimp only
    split
    · refine Relation.ReflTransGen.trans ?_ (edits_raise ..)
      exact edits_setRec hr rfl rfl
    · next first second _ =>
      refine (edits_relocate un.ctx first second un.shadow s).trans ?_
      refine .trans (.trans ?_ (edits_of_moves (moves_relocationEffects ..))) (edits_raise ..)
      exact edits_modRec (by intro _; rfl) (by intro _; rfl) ..

theorem edits_completeSearch (u : Nat) (un : SearchUnit) (s : State) : Edits b s (completeSearch u un b s) :=
  ((edits_handOff un s).trans (edits_setLink ..)).trans (edits_freeUnit ..)

theorem edits_failSearch (u : Nat) (un : SearchUnit) (s : State) : Edits b s (failSearch u un b s) :=
  ((edits_raise ..).trans (edits_setLink ..)).trans (edits_freeUnit ..)

end

theorem edits_finishUnit (s : State) (u : Nat) : Edits true s (finishUnit s u) := by
  unfold finishUnit
  cases tget u s.units with
  | none => exact .refl
  | some un =>
    dsimp only
    split
    · exact edits_completeSearch ..
    · split
      · exact edits_failSearch ..
      · exact .refl

theorem edits_finishUnits (l : List Nat) (s : State) : Edits true s (l.foldl finishUnit s) := by
  induction l generalizing s with
  | nil => exact .refl
  | cons u l ih => exact (edits_finishUnit s u).trans (ih _)

/-! ### Commands -/

theorem edits_keyed {hw slot : Byte} {s : State} {f : Nat → Record → State × Reply}
    (hf : ∀ c r, s.rec? c = some r → Edits false s (f c r).1) : Edits false s (keyed hw slot s f).1 := by
  rcases keyed_cases hw slot s f with ⟨_, h⟩ | ⟨_, ⟨_, h⟩ | ⟨c, r, _, hr, h⟩⟩ <;> rw [h]
  exact hf c r hr

theorem edits_changeMain (m : MainState) (c : Nat) (s : State) : Edits false s (changeMain m c false s) :=
  edits_of_moves (moves_changeMain m c s)

theorem edits_engageCmd (hw slot : Byte) (s : State) : Edits false s (engageCmd hw slot s).1 :=
  edits_keyed fun c r _ => by
    split
    · exact edits_changeMain ..
    · exact .refl

theorem edits_holdCmd (hw slot : Byte) (s : State) : Edits false s (holdCmd hw slot s).1 :=
  edits_keyed fun c r hr => by
    split
    · exact .refl
    · refine .trans ?_ (edits_changeMain ..)
      exact edits_setRec hr rfl rfl

theorem edits_resumeCmd (hw slot : Byte) (s : State) : Edits false s (resumeCmd hw slot s).1 :=
  edits_keyed fun c r _ => by
    split
    · exact edits_changeMain ..
    · exact .refl

theorem edits_restoreCmd (hw slot : Byte) (s : State) : Edits false s (restoreCmd hw slot s).1 :=
  edits_keyed fun c r _ => by
    split
    · exact .refl
    · refine .trans ?_ (edits_requestSearch ..)
      have hclear : ∀ t : State, Edits false t (t.modRec c fun q => { q with div := soundGroup, conv := clearConv }) := fun t =>
        edits_modRec (by intro _; rfl) (by intro _; rfl) c t
      exact ((edits_changeMain .acquire c s).trans (hclear _)).tail (.pool fun h => poolWf_zeroWindows h r.wins)

theorem edits_searchCmd (hw slot : Byte) (s : State) : Edits false s (searchCmd hw slot s).1 :=
  edits_keyed fun c r _ => by
    split
    · exact .refl
    · split
      · exact edits_requestSearch ..
      · exact .refl

theorem edits_respanSearch (c : Nat) (r : Record) (s : State) : Edits false s (respanSearch c r s) := by
  unfold respanSearch
  split
  · exact .refl
  · cases r.link with
    | none => exact edits_requestSearch ..
    | queued => exact .refl
    | searching u =>
      refine .trans ?_ (edits_freeUnit ..)
      exact (edits_setLink .queued c s).tail (.rest rfl)

theorem edits_amendSpanCmd (hw slot span : Byte) (s : State) : Edits false s (amendSpanCmd hw slot span s).1 :=
  edits_keyed fun c r hr => by
    dsimp only
    split
    · exact .refl
    · refine .trans ?_ (edits_respanSearch ..)
      have hset : Edits false s (s.setRec c { r with
          id := { r.id with span := min maxSpan span.toNat }, wins := clipWindows (min maxSpan span.toNat) r.wins }) :=
        edits_setRec hr rfl rfl
      exact hset.tail (.rest rfl)

theorem edits_amendWindowsAccepted (c : Nat) (r : Record) (first : Place) (second : Option Place) (s : State) :
    Edits false s (amendWindowsAccepted c r first second s) :=
  ((edits_endSearch c s).trans (edits_relocate ..)).trans (edits_of_moves (moves_relocationEffects ..))

theorem edits_amendWindowsCmd (hw slot b1 l1 b2 l2 : Byte) (s : State) :
    Edits false s (amendWindowsCmd hw slot b1 l1 b2 l2 s).1 :=
  edits_keyed fun c r _ => by
    dsimp only
    split
    · exact .refl
    · split
      · exact .refl
      · split
        · exact .refl
        · split
          · exact .refl
          · split <;> exact edits_amendWindowsAccepted ..

theorem edits_amendProfileCmd (hw slot profile : Byte) (s : State) : Edits false s (amendProfileCmd hw slot profile s).1 := by
  unfold amendProfileCmd
  split
  · exact .refl
  · refine edits_keyed fun c r hr => ?_
    dsimp only
    split
    · exact .refl
    · have hset : Edits false s (s.setRec c { r with id := { r.id with profile := profile.toNat } }) := edits_setRec hr rfl rfl
      exact hset.tail (.rest rfl)

theorem edits_readTapsCmd (hw slot win pos : Byte) (s : State) : Edits false s (readTapsCmd hw slot win pos s).1 :=
  edits_keyed fun c r _ => by split <;> exact .refl

theorem edits_writeTapsCmd (hw slot win pos : Byte) (coeffs : List Coeff) (s : State) :
    Edits false s (writeTapsCmd hw slot win pos coeffs s).1 :=
  edits_keyed fun c r _ => by
    split
    · exact .refl
    · split
      · exact .refl
      · exact .single (.pool fun h => poolWf_segWrite h _ (segSlice_length ..))

theorem edits_setProfileCmd (profile : Byte) (f : ProfileMsg) (s : State) : Edits false s (setProfileCmd profile f s).1 := by
  unfold setProfileCmd
  split
  · exact .refl
  · split
    · dsimp only
      split
      · exact .refl
      · split
        · exact .refl
        · exact edits_rest rfl
    · exact .refl

theorem edits_readProfileCmd (profile : Byte) (s : State) : Edits false s (readProfileCmd profile s).1 := by
  unfold readProfileCmd
  split <;> exact .refl

theorem edits_fetchNoticeCmd (s : State) : Edits false s (fetchNoticeCmd s).1 := by
  unfold fetchNoticeCmd
  cases s.pendingHighway with
  | some h => exact edits_rest rfl
  | none =>
    cases hc : s.pendingContext with
    | none => exact .refl
    | some e => exact .single (.record (List.mem_of_find?_eq_some hc) rfl rfl)

theorem edits_bindAccepted {hw : Byte} (slot flags : Byte) (p g : Nat) (short : Bool) {c : Nat} {s : State}
    (hc : s.rec? c = none) (hhw : s.enabled hw.toNat = true) :
    Edits false s (bindAccepted hw slot flags p c g short s).1 := by
  have hbound : ∀ q : Record, q.id.hw = hw.toNat → q.blk.started = false → Edits false s (s.setRec c q) := fun q hq hs =>
    .single (.bound hc (hq ▸ hhw) hs)
  unfold bindAccepted
  dsimp only
  generalize hq : bindRecord c hw.toNat slot.toNat p s.stamp (s.profile p) (s.free.take g) short (flags.getLsbD 0) = q
  have hset := hbound q (hq ▸ rfl) (hq ▸ rfl)
  have hused := (hset.tail (.pool fun h => poolWf_zeroWindows h q.wins)).tail (Edit.rest
    (t := useProfile p { s.setRec c q with
      free := s.free.drop g, pool := zeroWindows s.pool q.wins, index := tset (position hw.toNat slot.toNat) c s.index }) rfl)
  split
  · exact hused
  · exact hused.trans (edits_requestSearch ..)

theorem edits_bindCmd (hw slot profile flags : Byte) (s : State) : Edits false s (bindCmd hw slot profile flags s).1 := by
  unfold bindCmd
  split
  · exact .refl
  · split
    · exact .refl
    · next hhw =>
      split
      · exact .refl
      · split
        · exact .refl
        · split
          · exact .refl
          · next hv =>
            split
            · exact .refl
            · exact edits_bindAccepted slot flags _ _ _ (vacant_rec? hv) (by simpa using hhw)

/-- What a link command does, but for RETIRE, RESET HIGHWAY and CONFIGURE, is a run of edits. -/
theorem edits_linkEffect {i : Instr} {f : State → State × Reply} (h : linkEffect i = some f)
    (hretire : ∀ hw slot, i ≠ .retire hw slot) (hreset : ∀ hw, i ≠ .resetHighway hw)
    (hconfigure : ∀ e r m d u, i ≠ .configure e r m d u) (s : State) : Edits false s (f s).1 := by
  cases i <;> simp only [linkEffect, Option.some.injEq, reduceCtorEq] at h <;> subst h
  case bind => exact edits_bindCmd ..
  case retire => exact absurd rfl (hretire _ _)
  case engage => exact edits_engageCmd ..
  case hold => exact edits_holdCmd ..
  case resume => exact edits_resumeCmd ..
  case restore => exact edits_restoreCmd ..
  case search => exact edits_searchCmd ..
  case query => exact edits_keyed fun _ _ _ => .refl
  case amendSpan => exact edits_amendSpanCmd ..
  case amendWindows => exact edits_amendWindowsCmd ..
  case amendProfile => exact edits_amendProfileCmd ..
  case readTaps => exact edits_readTapsCmd ..
  case writeTaps => exact edits_writeTapsCmd ..
  case readPool => exact .refl
  case setProfile => exact edits_setProfileCmd ..
  case readProfile => exact edits_readProfileCmd ..
  case configure => exact absurd rfl (hconfigure _ _ _ _ _)
  case readConfig => exact .refl
  case resetHighway => exact absurd rfl (hreset _)
  case resetStamp => exact .single (.stamped _)
  case fetchNotice => exact edits_fetchNoticeCmd s

end Sys2Proof.FrameTiming


/-! PROOFS. What no edit changes; the observations of a frame, the boundary and the end of a frame, each said once. -/

namespace Sys2Proof.FrameTiming

open Sys2Proof Sys2Proof.Machine Sys2Proof.TapSegments

/-! ### What no edit changes -/

/-- The fields that no edit changes. -/
structure SameFixed (s t : State) : Prop where
  phase : t.phase = s.phase
  sync : t.sync = s.sync
  slots : t.slots = s.slots
  stampUnit : t.stampUnit = s.stampUnit
  pointer : t.pointer = s.pointer
  inForce : t.inForce = s.inForce

theorem sameFixed_refl (s : State) : SameFixed s s := ⟨rfl, rfl, rfl, rfl, rfl, rfl⟩

theorem SameFixed.trans {s t u : State} (h : SameFixed s t) (k : SameFixed t u) : SameFixed s u :=
  ⟨k.phase.trans h.phase, k.sync.trans h.sync, k.slots.trans h.slots, k.stampUnit.trans h.stampUnit, k.pointer.trans h.pointer,
    k.inForce.trans h.inForce⟩

section
variable {b : Bool} {s t : State}

theorem sameFixed_of_edit (h : Edit b s t) : SameFixed s t := by
  cases h with
  | rest h =>
    exact ⟨(congrArg State.phase h :), (congrArg State.sync h :), (congrArg State.slots h :), (congrArg State.stampUnit h :),
      (congrArg State.pointer h :), (congrArg State.inForce h :)⟩
  | _ => exact ⟨rfl, rfl, rfl, rfl, rfl, rfl⟩

theorem sameFixed_of_edits (h : Edits b s t) : SameFixed s t := by
  induction h with
  | refl => exact sameFixed_refl s
  | tail _ hedit ih => exact ih.trans (sameFixed_of_edit hedit)

/-- What every edit keeps, a run of edits keeps. -/
theorem edits_keep {P : State → Prop} (hedit : ∀ x y, Edit b x y → P x → P y) (h : Edits b s t) (hs : P s) : P t := by
  induction h with
  | refl => exact hs
  | tail _ he ih => exact hedit _ _ he ih

end

/-! ### Highways -/

/-- A highway after its pending observation, if there is one, is made, by the tables of R52 and R53. -/
def observed (y : Highway) : Highway :=
  match y.obs with
  | none => y
  | some g => { countObs g y with
      sync := if y.locks then .locked else if y.loses then .lost else if y.returns then .locked else y.sync }

/-- `s` with the pending observation of highway `h`, which is `y`, made: the counts and the state, the notices apart. -/
def countedHighway (h : Nat) (y : Highway) (s : State) : State := s.setHighway h (observed y)

theorem obs_of_locks {y : Highway} (h : y.locks = true) : y.sync = .seeking ∧ y.obs = some true ∧ 7 ≤ y.good := by
  simpa [Highway.locks, and_assoc] using h
theorem obs_of_loses {y : Highway} (h : y.loses = true) : y.sync = .locked ∧ y.obs = some false ∧ 1 ≤ y.bad := by
  simpa [Highway.loses, and_assoc] using h
theorem obs_of_returns {y : Highway} (h : y.returns = true) : y.sync = .lost ∧ y.obs = some true ∧ 7 ≤ y.good := by
  simpa [Highway.returns, and_assoc] using h

section
variable {y : Highway} (h : Nat) (s : State)

theorem lockHighway_eq (hy : y.locks = true) : lockHighway h y s = countedHighway h y s := by
  simp [lockHighway, countedHighway, observed, (obs_of_locks hy).2.1, hy]

theorem loseHighway_eq (hy : y.loses = true) : loseHighway h y s = raiseHw .syncLost h (countedHighway h y s) := by
  obtain ⟨hsync, hobs, _⟩ := obs_of_loses hy
  simp [loseHighway, countedHighway, observed, hobs, hy, Highway.locks, hsync]

theorem returnHighway_eq (hy : y.returns = true) : returnHighway h y s = raiseHw .syncBack h (countedHighway h y s) := by
  obtain ⟨hsync, hobs, _⟩ := obs_of_returns hy
  simp [returnHighway, countedHighway, observed, hobs, hy, Highway.locks, Highway.loses, hsync]

theorem edits_raiseHw (k : HwKind) : Edits false s (raiseHw k h s) := by
  unfold raiseHw
  split
  · exact .refl
  · refine .tail ?_ (.owed _)
    exact edits_rest rfl

/-- Making a highway's observation: nothing where none is held, else the counts, and the notice that the transition raises. -/
theorem makeObs_cases :
    (makeObs s h = s ∧ (tget h s.sync).map observed = tget h s.sync) ∨
    ∃ y, tget h s.sync = some y ∧
      ((y.loses = true ∧ makeObs s h = raiseHw .syncLost h (countedHighway h y s)) ∨
       (y.returns = true ∧ makeObs s h = raiseHw .syncBack h (countedHighway h y s)) ∨
       (y.loses = false ∧ y.returns = false ∧ makeObs s h = countedHighway h y s)) := by
  unfold makeObs
  cases hy : tget h s.sync with
  | none => exact .inl ⟨rfl, rfl⟩
  | some y =>
    cases ho : y.obs with
    | none => exact .inl ⟨by simp [ho], by simp [observed, ho]⟩
    | some g =>
      refine .inr ⟨y, rfl, ?_⟩
      simp only [ho]
      by_cases hl : y.locks = true
      · have hsync := (obs_of_locks hl).1
        rw [if_pos hl, lockHighway_eq h s hl]
        exact .inr (.inr ⟨by simp [Highway.loses, hsync], by simp [Highway.returns, hsync], rfl⟩)
      · rw [if_neg hl]
        by_cases hl' : y.loses = true
        · rw [if_pos hl', loseHighway_eq h s hl']
          exact .inl ⟨hl', rfl⟩
        · rw [if_neg hl']
          by_cases hr : y.returns = true
          · rw [if_pos hr, returnHighway_eq h s hr]
            exact .inr (.inl ⟨hr, rfl⟩)
          · rw [if_neg hr]
            refine .inr (.inr ⟨by simpa using hl', by simpa using hr, ?_⟩)
            simp [countedHighway, observed, ho, hl, hl', hr, countObs]
            split <;> rfl

/-- An observation made is the counting of it, but for edits. -/
theorem makeObs_edits :
    makeObs s h = s ∨ ∃ y, tget h s.sync = some y ∧ Edits false (countedHighway h y s) (makeObs s h) := by
  rcases makeObs_cases h s with ⟨he, _⟩ | ⟨y, hy, ⟨_, he⟩ | ⟨_, he⟩ | ⟨_, _, he⟩⟩
  · exact .inl he
  all_goals refine .inr ⟨y, hy, ?_⟩; rw [he]
  · exact edits_raiseHw ..
  · exact edits_raiseHw ..

/-- A row of a sync transition makes the observation or changes nothing. -/
theorem takeSync_edits {brings : Highway → Bool} {act : Nat → Highway → State → State}
    (hact : ∀ y : Highway, brings y = true → Edits false (countedHighway h y s) (act h y s)) :
    takeSync brings act h s = s ∨
    ∃ y, tget h s.sync = some y ∧ Edits false (countedHighway h y s) (takeSync brings act h s) := by
  unfold takeSync
  cases hy : tget h s.sync with
  | none => exact .inl rfl
  | some y =>
    cases hb : brings y with
    | false => exact .inl (by simp [hb])
    | true => exact .inr ⟨y, rfl, by simpa [hb] using hact y hb⟩

theorem lock_edits : takeSync Highway.locks lockHighway h s = s ∨
    ∃ y, tget h s.sync = some y ∧ Edits false (countedHighway h y s) (takeSync Highway.locks lockHighway h s) :=
  takeSync_edits h s fun y hy => by rw [lockHighway_eq h s hy]

theorem syncLost_edits : takeSync Highway.loses loseHighway h s = s ∨
    ∃ y, tget h s.sync = some y ∧ Edits false (countedHighway h y s) (takeSync Highway.loses loseHighway h s) :=
  takeSync_edits h s fun y hy => by rw [loseHighway_eq h s hy]; exact edits_raiseHw ..

theorem syncBack_edits : takeSync Highway.returns returnHighway h s = s ∨
    ∃ y, tget h s.sync = some y ∧ Edits false (countedHighway h y s) (takeSync Highway.returns returnHighway h s) :=
  takeSync_edits h s fun y hy => by rw [returnHighway_eq h s hy]; exact edits_raiseHw ..

end

/-! ### The boundary and the end of a frame -/

/-- A boundary but for the WARNED notices that it raises. -/
def measured (s : State) : State :=
  { s with
    phase := 0
    blockCounter := s.blockCounter + 1
    pointer := pointerAfter s.sched s.pointer s.selection
    ctxs := s.ctxs.map fun e => (e.1, s.boundaryRecord s.selection e.1 e.2)
    pool := s.adapt s.selection
    units := s.units.map fun e => (e.1, s.unitEnd e.2)
    prescale := if s.stampDue then s.prescale else s.prescale + 1
    due := s.ctxs.flatMap (fun e => dueEvents (s.profileOf e.2) (s.histOf e.2) e.1 e.2) ++
           if s.stampDue then [DueEvent.stampAdvance] else [] }

theorem blockBoundary_eq (s : State) : blockBoundary s = s.warnedNow.foldl (fun t c => raise .warned c t) (measured s) := rfl

theorem edits_blockBoundary (s : State) : Edits true (measured s) (blockBoundary s) :=
  edits_of_moves (moves_foldl (fun t c => moves_raise .warned c t) _ _)

/-- The observations of the frame in progress, made. -/
def allObserved (s : State) : State := (List.range nHighways).foldl makeObs s

/-- The boundary, if it is due, taken. -/
def boundaryTaken (s : State) : State := if s.boundaryDue then blockBoundary (settle s) else s

theorem closeFrame_eq (s : State) :
    closeFrame s = (List.range nUnits).foldl finishUnit (settle (boundaryTaken (allObserved s))) := rfl

theorem edits_closeFrame (s : State) : Edits true (boundaryTaken (allObserved s)) (closeFrame s) :=
  (edits_of_moves (moves_settle _)).trans (edits_finishUnits _ _)

theorem edits_settle (s : State) : Edits true s (settle s) := edits_of_moves (moves_settle s)

theorem foldl_keepsProp {α β : Type} {P : β → Prop} {f : β → α → β} (hf : ∀ x a, P x → P (f x a)) (l : List α) {x : β}
    (hx : P x) : P (l.foldl f x) := by
  induction l generalizing x with
  | nil => exact hx
  | cons a l ih => exact ih (hf _ _ hx)

/-- What holds before the end of a frame, and through its observations, its boundary and every edit, holds after it. -/
theorem closeFrame_induction {P : State → Prop} (hobs : ∀ x h, P x → P (makeObs x h)) (hmeas : ∀ x, P x → P (measured x))
    (hedit : ∀ x y, Edit true x y → P x → P y) {s : State} (hs : P s) : P (closeFrame s) := by
  have hedits : ∀ {x y}, Edits true x y → P x → P y := fun h => edits_keep hedit h
  refine hedits (edits_closeFrame s) ?_
  have ho : P (allObserved s) := foldl_keepsProp hobs _ hs
  unfold boundaryTaken
  split
  · exact hedits (edits_blockBoundary _) (hmeas _ (hedits (edits_settle _) ho))
  · exact ho

/-! ### The frame that begins -/

/-- The samples and the observations of a frame taken in `a`, the state as the frame begins, and the frame counted. -/
def frameTaken (rIn sIn : List Sample) (marks : List SyncMarks) (a : State) : State :=
  { observeFrame marks (takeSamples rIn sIn a) with phase := a.phase + 1 }

theorem takes_frame (rIn sIn : List Sample) (marks : List SyncMarks) (s : State) :
    takes (.frame rIn sIn marks) s (frameTaken rIn sIn marks (atFrame s)) := by
  unfold takes exec execFrame atFrame
  generalize closeFrame s = v
  rfl

/-- A command that is none of RETIRE, RESET HIGHWAY and CONFIGURE. -/
def editsOnly (i : Instr) : Prop :=
  (∀ hw slot, i ≠ .retire hw slot) ∧ (∀ hw, i ≠ .resetHighway hw) ∧ ∀ e r m d u, i ≠ .configure e r m d u

/-- The three commands that are more than edits. -/
theorem editsOnly_or (i : Instr) :
    editsOnly i ∨ (∃ hw slot, i = .retire hw slot) ∨ (∃ hw, i = .resetHighway hw) ∨ ∃ e r m d u, i = .configure e r m d u := by
  cases i
  case retire hw slot => exact .inr (.inl ⟨hw, slot, rfl⟩)
  case resetHighway hw => exact .inr (.inr (.inl ⟨hw, rfl⟩))
  case configure e r m d u => exact .inr (.inr (.inr ⟨e, r, m, d, u, rfl⟩))
  all_goals exact .inl ⟨by simp, by simp, by simp⟩

/-! ### Rows and commands by case -/

/-- What a transaction is: no message, a message refused by the link's checks, a read, or the command that the message
decodes to. -/
theorem transaction_cases (bytes : List Byte) (s : State) :
    (∃ r l, transaction bytes s = { s with resp := r, linkOut := l }) ∨
    ∃ i f, decodeMessage bytes = .ok i ∧ linkEffect i = some f ∧ transaction bytes s = s.command bytes.length f := by
  unfold transaction messageTaken
  split
  · exact .inl ⟨s.resp, s.linkOut, rfl⟩
  · split
    · exact .inl ⟨_, _, rfl⟩
    · split
      · exact .inl ⟨_, _, rfl⟩
      · next i hi =>
        split
        · exact .inl ⟨_, _, rfl⟩
        · next f hf => exact .inr ⟨i, f, hi, hf, rfl⟩

/-- The row of the end of a search of unit `u`: nothing, or the search ended in the settled state; after the boundary, on a
unit that is then at its end. -/
theorem takeSearchEnd_cases (ends : SearchUnit → Bool) (act : Nat → SearchUnit → Bool → State → State) (u : Nat) (s : State) :
    takeSearchEnd ends act u s = s ∨ ∃ un x b, tget u (settle s).units = some un ∧ (b = true → ends un = true) ∧
      takeSearchEnd ends act u s = act u x b (settle s) := by
  unfold takeSearchEnd
  dsimp only
  split
  · exact .inl rfl
  · next un hu =>
    split <;> split
    · exact .inr ⟨un, _, false, hu, nofun, rfl⟩
    · exact .inl rfl
    · next he => exact .inr ⟨un, un, true, hu, fun _ => he, rfl⟩
    · exact .inl rfl

/-- RETIRE retires a context or changes nothing. -/
theorem retireCmd_cases (hw slot : Byte) (s : State) :
    (retireCmd hw slot s).1 = s ∨ ∃ c, (retireCmd hw slot s).1 = retire c s := by
  unfold retireCmd
  rcases keyed_cases hw slot s fun c r => (retire c s, answer (nat16 c ++ [nat8 r.segCount])) with
    ⟨_, h⟩ | ⟨_, ⟨_, h⟩ | ⟨c, _, _, _, h⟩⟩ <;> rw [h]
  · exact .inl rfl
  · exact .inl rfl
  · exact .inr ⟨c, rfl⟩

end Sys2Proof.FrameTiming


/-! PROOFS. The highways' sync counts, and the forms of pool, counts, histories and alert lines, kept by every step. -/

namespace Sys2Proof.FrameTiming

open Sys2Proof Sys2Proof.Machine Sys2Proof.TapSegments

/-! ### Highways and the contexts bound on them -/

/-- The numbers of a table of highways rise and are among the eight, and its counts are as R52 and R53 say. -/
def HighwaysFit (m : List (Nat × Highway)) : Prop :=
  rising m = true ∧ ∀ e ∈ m, e.1 < nHighways ∧ highwayFits e.2 = true

/-- Every bound context lies on an enabled highway (R58). -/
def BoundEnabled (s : State) : Prop := ∀ e ∈ s.ctxs, s.enabled e.2.id.hw = true

theorem syncSafe_iff {s : State} : syncSafe s = true ↔ HighwaysFit s.sync ∧ BoundEnabled s := by
  simp [syncSafe, HighwaysFit, BoundEnabled]

theorem HighwaysFit.tset {m : List (Nat × Highway)} (hm : HighwaysFit m) {h : Nat} {y : Highway} (hh : h < nHighways)
    (hy : highwayFits y = true) : HighwaysFit (tset h y m) := by
  refine ⟨rising_tset hm.1, fun e he => ?_⟩
  rcases mem_tset he with rfl | he
  · exact ⟨hh, hy⟩
  · exact hm.2 e he

theorem HighwaysFit.tdel {m : List (Nat × Highway)} (hm : HighwaysFit m) (h : Nat) : HighwaysFit (tdel h m) :=
  ⟨rising_tdel hm.1, fun e he => hm.2 e (mem_tdel.1 he).1⟩

theorem highwayFits_freshHighway : highwayFits freshHighway = true := by decide

theorem highwayFits_iff {y : Highway} : highwayFits y = true ↔
    y.good ≤ 8 ∧ y.bad ≤ 2 ∧ (y.good = 0 ∨ y.bad = 0) ∧ (y.sync ≠ .locked → y.good ≤ 7) ∧ (y.sync = .locked → y.bad ≤ 1) := by
  cases hy : y.sync <;> simp [highwayFits, hy, and_assoc]

/-- An observation made gives counts as the state says, whatever they were: eight good ones end SEEKING and LOST, two bad ones
LOCKED. -/
theorem highwayFits_observed {y : Highway} (h : highwayFits y = true) : highwayFits (observed y) = true := by
  cases ho : y.obs with
  | none => simpa [observed, ho] using h
  | some g =>
    rw [highwayFits_iff]
    cases hs : y.sync <;> cases g <;> simp [hs, observed, ho, countObs, Highway.locks, Highway.loses, Highway.returns]

theorem syncSafe_countedHighway {s : State} {h : Nat} {y : Highway} (hs : syncSafe s = true) (hy : tget h s.sync = some y) :
    syncSafe (countedHighway h y s) = true := by
  obtain ⟨hfit, hbound⟩ := syncSafe_iff.1 hs
  obtain ⟨hh, hyfit⟩ := hfit.2 _ (mem_of_tget hy)
  refine syncSafe_iff.2 ⟨hfit.tset hh (highwayFits_observed hyfit), fun e he => ?_⟩
  have henabled := hbound e he
  by_cases hk : e.2.id.hw = h
  · simp [State.enabled, countedHighway, State.setHighway, hk]
  · simpa [State.enabled, countedHighway, State.setHighway, tget_tset_other hk] using henabled

theorem boundEnabled_of_edit {b : Bool} {s t : State} (h : Edit b s t) (hs : BoundEnabled s) : BoundEnabled t := by
  have htset : ∀ (c : Nat) (q : Record), s.enabled q.id.hw = true → BoundEnabled (s.setRec c q) := fun c q hq e he => by
    rcases mem_tset he with rfl | he
    · exact hq
    · exact hs e he
  cases h with
  | record hr hhw _ => exact htset _ _ (hhw ▸ hs _ hr)
  | bound _ hhw _ => exact htset _ _ hhw
  | rest h =>
    rw [← h] at hs
    exact hs
  | _ => exact hs

theorem syncSafe_of_edit {b : Bool} {s t : State} (h : Edit b s t) (hs : syncSafe s = true) : syncSafe t = true := by
  obtain ⟨hfit, hbound⟩ := syncSafe_iff.1 hs
  exact syncSafe_iff.2 ⟨(sameFixed_of_edit h).sync ▸ hfit, boundEnabled_of_edit h hbound⟩

theorem syncSafe_of_edits {b : Bool} {s t : State} (h : Edits b s t) (hs : syncSafe s = true) : syncSafe t = true :=
  edits_keep (P := fun x => syncSafe x = true) (fun _ _ => syncSafe_of_edit) h hs

/-- A table of contexts whose records each come from one on the same highway keeps them on enabled highways. -/
theorem syncSafe_of_records {s t : State} (hs : syncSafe s = true) (hsync : t.sync = s.sync)
    (hrecs : ∀ e ∈ t.ctxs, ∃ d ∈ s.ctxs, e.2.id.hw = d.2.id.hw) : syncSafe t = true := by
  obtain ⟨hfit, hbound⟩ := syncSafe_iff.1 hs
  refine syncSafe_iff.2 ⟨hsync ▸ hfit, fun e he => ?_⟩
  obtain ⟨d, hd, hhw⟩ := hrecs e he
  rw [enabled_congr hsync, hhw]
  exact hbound d hd

theorem syncSafe_makeObs (s : State) (h : Nat) (hs : syncSafe s = true) : syncSafe (makeObs s h) = true := by
  rcases makeObs_edits h s with he | ⟨y, hy, he⟩
  · rwa [he]
  · exact syncSafe_of_edits he (syncSafe_countedHighway hs hy)

theorem recordEnd_id (p : Profile) (h : List Sample) (r : Record) : (recordEnd p h r).id = r.id := by
  unfold recordEnd
  split
  · rfl
  · split <;> rfl

theorem frameRecord_id (s : State) (rIn sIn : List Sample) (r : Record) : (s.frameRecord rIn sIn r).id = r.id := by
  unfold State.frameRecord
  split
  · rfl
  · split <;> rfl

theorem syncSafe_measured (s : State) (hs : syncSafe s = true) : syncSafe (measured s) = true := by
  refine syncSafe_of_records hs rfl fun e he => ?_
  obtain ⟨d, hd, rfl⟩ := List.mem_map.1 he
  exact ⟨d, hd, by simp only [State.boundaryRecord, recordEnd_id]⟩

theorem syncSafe_closeFrame {s : State} (hs : syncSafe s = true) : syncSafe (closeFrame s) = true :=
  closeFrame_induction (P := fun x => syncSafe x = true) syncSafe_makeObs syncSafe_measured (fun _ _ => syncSafe_of_edit) hs

theorem syncSafe_openFrame {s : State} (hs : syncSafe s = true) : syncSafe (openFrame s) = true := by
  refine syncSafe_of_records hs rfl fun e he => ?_
  obtain ⟨d, hd, rfl⟩ := List.mem_map.1 he
  exact ⟨d, hd, rfl⟩

/-- A highway in a frame whose marks are `marks`: it holds the frame's observation (R49, R52). -/
def seeing (marks : List SyncMarks) (h : Nat) (y : Highway) : Highway :=
  { y with obs := some (goodMarks (marks.getD h { atBoundary := false, elsewhere := false })) }

theorem frameTaken_sync (rIn sIn : List Sample) (marks : List SyncMarks) (a : State) :
    (frameTaken rIn sIn marks a).sync = a.sync.map fun e => (e.1, seeing marks e.1 e.2) := rfl

theorem tget_frameTaken_sync (rIn sIn : List Sample) (marks : List SyncMarks) (a : State) (h : Nat) :
    tget h (frameTaken rIn sIn marks a).sync = (tget h a.sync).map (seeing marks h) := by
  rw [frameTaken_sync, tget_map_key]

theorem syncSafe_frameTaken {a : State} (ha : syncSafe a = true) (rIn sIn : List Sample) (marks : List SyncMarks) :
    syncSafe (frameTaken rIn sIn marks a) = true := by
  obtain ⟨hfit, hbound⟩ := syncSafe_iff.1 ha
  refine syncSafe_iff.2 ⟨⟨?_, fun e he => ?_⟩, fun e he => ?_⟩
  · rw [frameTaken_sync]
    exact rising_map (seeing marks) hfit.1
  · obtain ⟨d, hd, rfl⟩ := List.mem_map.1 he
    exact hfit.2 d hd
  · obtain ⟨d, hd, rfl⟩ := List.mem_map.1 he
    rw [State.enabled, tget_frameTaken_sync, Option.isSome_map, frameRecord_id]
    exact hbound d hd

/-! ### The commands on highways -/

/-- Retirement: the search ended, the context vacated, and edits. -/
theorem retire_cases (c : Nat) (s : State) :
    (s.rec? c = none ∧ retire c s = s) ∨
    ∃ r, s.rec? c = some r ∧
      Edits false { endSearch c false s with ctxs := tdel c (endSearch c false s).ctxs } (retire c s) := by
  cases hr : s.rec? c with
  | none => exact .inl ⟨rfl, by simp [retire, hr]⟩
  | some r =>
    refine .inr ⟨r, rfl, ?_⟩
    simp only [retire, hr]
    exact edits_rest rfl

theorem syncSafe_retire (s : State) (c : Nat) (hs : syncSafe s = true) : syncSafe (retire c s) = true := by
  rcases retire_cases c s with ⟨_, h⟩ | ⟨r, _, h⟩
  · rwa [h]
  · refine syncSafe_of_edits h (syncSafe_of_records (syncSafe_of_edits (edits_endSearch c s) hs) rfl fun e he => ?_)
    exact ⟨e, (mem_tdel.1 he).1, rfl⟩

/-- RESET HIGHWAY, its retirements apart. -/
def silenced (h : Nat) (s : State) : State :=
  clearHw h (if s.enabled h then (s.mapSlots fun p sl => if p / nSlots = h then { sl with hist := [] } else sl).setHighway h
      freshHighway
    else s.mapSlots fun p sl => if p / nSlots = h then { sl with hist := [] } else sl)

theorem resetHighway_eq (h : Nat) (s : State) :
    resetHighway h s = silenced h ((s.boundOn h).foldl (fun t c => retire c t) s) := rfl

theorem syncSafe_silenced {s : State} (hs : syncSafe s = true) (h : Nat) : syncSafe (silenced h s) = true := by
  obtain ⟨hfit, hbound⟩ := syncSafe_iff.1 hs
  unfold silenced
  split
  · next hen =>
    obtain ⟨y, hy⟩ := Option.isSome_iff_exists.1 hen
    refine syncSafe_iff.2 ⟨hfit.tset (hfit.2 _ (mem_of_tget hy)).1 highwayFits_freshHighway, fun e he => ?_⟩
    by_cases hk : e.2.id.hw = h
    · simp [State.enabled, clearHw, State.setHighway, hk]
    · simpa [State.enabled, clearHw, State.setHighway, State.mapSlots, tget_tset_other hk] using hbound e he
  · exact hs

theorem syncSafe_resetHighwayCmd (hw : Byte) {s : State} (hs : syncSafe s = true) : syncSafe (resetHighwayCmd hw s).1 = true := by
  unfold resetHighwayCmd
  split
  · exact hs
  · exact syncSafe_silenced (foldl_keepsProp (P := fun x => syncSafe x = true) syncSafe_retire _ hs) _

/-- What the enables of a CONFIGURE leave of a highway (R58). -/
def enabledAs (e : Byte) (h : Nat) (y : Option Highway) : Option Highway :=
  if e.getLsbD h then some (y.getD freshHighway) else none

theorem tget_enableHighway (e : Byte) (s : State) (h k : Nat) :
    tget k (enableHighway e s h).sync = if k = h then enabledAs e h (tget h s.sync) else tget k s.sync := by
  unfold enableHighway enabledAs State.enabled
  by_cases hk : k = h
  · subst hk
    cases hy : tget k s.sync <;> cases e.getLsbD k <;> simp [hy, State.setHighway]
  · cases hy : tget h s.sync <;> cases e.getLsbD h <;>
      simp [hk, State.setHighway, tget_tset_other hk, tget_tdel_other hk]

theorem tget_enableHighways (e : Byte) (l : List Nat) (s : State) (k : Nat) :
    tget k (l.foldl (enableHighway e) s).sync = if k ∈ l then enabledAs e k (tget k s.sync) else tget k s.sync := by
  induction l generalizing s with
  | nil => simp
  | cons h l ih =>
    rw [List.foldl_cons, ih, tget_enableHighway]
    by_cases hk : k = h
    · subst hk
      have hidem : enabledAs e k (enabledAs e k (tget k s.sync)) = enabledAs e k (tget k s.sync) := by
        unfold enabledAs
        cases e.getLsbD k <;> simp
      simp [hidem]
    · simp [hk]

theorem highwaysFit_enableHighway (e : Byte) {s : State} {h : Nat} (hh : h < nHighways) (hs : HighwaysFit s.sync) :
    HighwaysFit (enableHighway e s h).sync := by
  unfold enableHighway
  split
  · split
    · exact hs
    · exact hs.tset hh highwayFits_freshHighway
  · exact hs.tdel h

/-- The enables of a CONFIGURE change the highways alone. -/
theorem enableHighways_frame (e : Byte) (l : List Nat) (s : State) (m : List (Nat × Highway)) :
    { l.foldl (enableHighway e) s with sync := m } = { s with sync := m } := by
  refine foldl_keeps (fun t : State => { t with sync := m }) _ (fun t h => ?_) l s
  unfold enableHighway
  split
  · split <;> rfl
  · rfl

theorem disablesBound_eq_false {e : Byte} {s : State} (h : disablesBound e s = false) {c : Nat} {r : Record}
    (hr : (c, r) ∈ s.ctxs) (hhw : r.id.hw < nHighways) (hen : s.enabled r.id.hw = true) : e.getLsbD r.id.hw = true := by
  simp only [disablesBound, List.any_eq_false, List.mem_range] at h
  have hne : (s.boundOn r.id.hw).isEmpty = false := by
    have : c ∈ s.boundOn r.id.hw := List.mem_map.2 ⟨(c, r), List.mem_filter.2 ⟨hr, by simp⟩, rfl⟩
    simpa using List.ne_nil_of_mem this
  simpa [hen, hne] using h _ hhw

/-- The state of an accepted CONFIGURE (R58). -/
def configured (e routing modes : Byte) (mode : SchedMode) (n : Nat) (s : State) : State :=
  { (List.range 8).foldl (enableHighway e) s with
    settings := settingsOf routing modes, sched := mode
    prescale := if s.stampUnit = n then s.prescale else 0, stampUnit := n }

/-- CONFIGURE changes the highways, the settings and the prescale count alone. -/
theorem configured_frame (e routing modes : Byte) (mode : SchedMode) (n : Nat) (s : State) :
    { configured e routing modes mode n s with
      sync := s.sync, settings := s.settings, sched := s.sched, stampUnit := s.stampUnit, prescale := s.prescale } = s :=
  congrArg (fun t : State => { t with
    settings := s.settings, sched := s.sched, stampUnit := s.stampUnit, prescale := s.prescale })
    (enableHighways_frame e (List.range 8) s s.sync)

theorem configured_settings (e routing modes : Byte) (mode : SchedMode) (n : Nat) (s : State) :
    { configured e routing modes mode n s with sync := s.sync, settings := s.settings, sched := s.sched } =
      { s with stampUnit := n, prescale := if s.stampUnit = n then s.prescale else 0 } :=
  congrArg (fun t : State => { t with stampUnit := n, prescale := if s.stampUnit = n then s.prescale else 0 })
    (configured_frame e routing modes mode n s)

theorem configureCmd_accepted {e routing modes sched unit : Byte} {s : State} {mode : SchedMode} {n : Nat}
    (hsched : schedOfByte sched = some mode) (hunit : unitOfByte unit = some n) (hkeeps : disablesBound e s = false) :
    configureCmd e routing modes sched unit s =
      (configured e routing modes mode n s, answer (configBody (configured e routing modes mode n s))) := by
  have hstampUnit : ((List.range nHighways).foldl (enableHighway e) s).stampUnit = s.stampUnit :=
    (congrArg State.stampUnit (enableHighways_frame e (List.range nHighways) s s.sync) :)
  have hprescale : ((List.range nHighways).foldl (enableHighway e) s).prescale = s.prescale :=
    (congrArg State.prescale (enableHighways_frame e (List.range nHighways) s s.sync) :)
  simp only [configureCmd, hsched, hunit, hkeeps, Bool.false_eq_true, if_false, hstampUnit, hprescale]
  rfl

/-- CONFIGURE is refused and changes nothing, or applies every setting (R58, R188). -/
theorem configureCmd_cases (e routing modes sched unit : Byte) (s : State) :
    (configureCmd e routing modes sched unit s).1 = s ∨
    ∃ mode n, unitOfByte unit = some n ∧ disablesBound e s = false ∧
      (configureCmd e routing modes sched unit s).1 = configured e routing modes mode n s := by
  cases hsched : schedOfByte sched with
  | none => exact .inl (by simp [configureCmd, hsched])
  | some mode =>
    cases hunit : unitOfByte unit with
    | none => exact .inl (by simp [configureCmd, hsched, hunit])
    | some n =>
      cases hkeeps : disablesBound e s with
      | true => exact .inl (by simp [configureCmd, hsched, hunit, hkeeps])
      | false => exact .inr ⟨mode, n, rfl, rfl, by rw [configureCmd_accepted hsched hunit hkeeps]⟩

theorem syncSafe_configureCmd (e r m d u : Byte) {s : State} (hs : syncSafe s = true) :
    syncSafe (configureCmd e r m d u s).1 = true := by
  obtain ⟨hfit, hbound⟩ := syncSafe_iff.1 hs
  rcases configureCmd_cases e r m d u s with h | ⟨mode, n, _, hkeeps, h⟩ <;> rw [h]
  · exact hs
  · have hctxs : (configured e r m mode n s).ctxs = s.ctxs := (congrArg State.ctxs (configured_frame e r m mode n s) :)
    refine syncSafe_iff.2 ⟨?_, fun x hx => ?_⟩
    · refine List.foldlRecOn (List.range nHighways) (enableHighway e) (motive := fun t => HighwaysFit t.sync) hfit ?_
      exact fun t ht h hh => highwaysFit_enableHighway e (List.mem_range.1 hh) ht
    · have hx : x ∈ s.ctxs := hctxs ▸ hx
      have hen := hbound x hx
      obtain ⟨y, hy⟩ := Option.isSome_iff_exists.1 hen
      have hh := (hfit.2 _ (mem_of_tget hy)).1
      have hbit := disablesBound_eq_false hkeeps hx hh hen
      show (tget x.2.id.hw ((List.range nHighways).foldl (enableHighway e) s).sync).isSome = true
      rw [tget_enableHighways, if_pos (List.mem_range.2 hh), enabledAs, if_pos hbit]
      rfl

end Sys2Proof.FrameTiming


/-! PROOFS. The forms of the pool, of the counts of time, of the histories and of the alert lines, kept by every step; O59. -/

namespace Sys2Proof.FrameTiming

open Sys2Proof Sys2Proof.Machine Sys2Proof.TapSegments

/-! ### The forms -/

/-- Pool, counts of time, histories and alert lines are in form. -/
structure Forms (s : State) : Prop where
  pool : poolWf s.pool = true
  time : timeSafe s = true
  slots : slotsSafe s = true
  lines : linesSafe s = true

theorem timeSafe_iff {s : State} : timeSafe s = true ↔
    (s.stampUnit = 1 ∨ s.stampUnit = 2 ∨ s.stampUnit = 4 ∨ s.stampUnit = 8) ∧ s.prescale < s.stampUnit ∧
      s.pointer < nContexts ∧ s.phase ≤ blockFrames := by
  simp [timeSafe, and_assoc]

/-- A history is no longer than what is kept of it, and ends in no zero. -/
def HistFits (h : List Sample) : Prop := h.length ≤ historyDepth ∧ h.getLast? ≠ some 0

theorem slotsSafe_iff {s : State} :
    slotsSafe s = true ↔ s.slots.length = nPositions ∧ ∀ sl ∈ s.slots, HistFits sl.hist := by
  simp [slotsSafe, HistFits]

/-- An alert line in a mode, `held` released by merge or not, is in form (R185, R187). -/
def LineFits (mode : LineMode) (held : Bool) (l : AlertLine) : Prop :=
  l.owed ≤ 255 ∧ (mode = .latched → l.owed = 0) ∧ (held = true → l.owed = 0 ∧ l.asserted = false)

theorem linesSafe_iff {s : State} : linesSafe s = true ↔
    LineFits s.inForce.modeA false s.lineA ∧ LineFits s.inForce.modeB s.inForce.merge s.lineB := by
  have hmode : ∀ (m : LineMode) (n : Nat), (m = .pulsed ∨ n = 0) ↔ (m = .latched → n = 0) := fun m n => by cases m <;> simp
  have hmerge : ∀ (m : Bool) (l : AlertLine), (m = false ∨ l.owed = 0 ∧ l.asserted = false) ↔
      (m = true → l.owed = 0 ∧ l.asserted = false) := fun m l => by cases m <;> simp
  simp only [linesSafe, LineFits, Bool.and_eq_true, Bool.or_eq_true, decide_eq_true_eq, beq_iff_eq, Bool.not_eq_true', hmode,
    hmerge, Bool.false_eq_true, false_imp_iff, and_true]
  tauto

/-! ### Alert lines -/

theorem lineFits_oweLine {mode : LineMode} {held hit : Bool} {l : AlertLine} (hl : LineFits mode held l)
    (hhit : held = true → hit = false) : LineFits mode held (oweLine mode hit l) := by
  obtain ⟨hle, hlatched, hheld⟩ := hl
  cases mode with
  | latched => exact ⟨hle, hlatched, hheld⟩
  | pulsed =>
    cases hit with
    | false => exact ⟨hle, hlatched, hheld⟩
    | true => exact ⟨Nat.min_le_left .., nofun, fun h => absurd (hhit h) nofun⟩

theorem routesToB_merge (r : Route) : routesToB true r = false := by cases r <;> rfl

theorem linesSafe_owe {s : State} (hs : linesSafe s = true) (r : Route) : linesSafe (s.owe r) = true := by
  obtain ⟨hA, hB⟩ := linesSafe_iff.1 hs
  refine linesSafe_iff.2 ⟨lineFits_oweLine hA nofun, lineFits_oweLine hB fun h => ?_⟩
  rw [show s.inForce.merge = true from h, routesToB_merge]

/-- A line at the start of a frame: under a merge newly in force its owed count is cleared (R187). -/
theorem lineFits_lineStart {old new : LineMode} {wasHeld held clear called : Bool} {l : AlertLine} (hl : LineFits old wasHeld l)
    (hclear : held = true → clear = true ∨ wasHeld = true) : LineFits new held (lineStart old new held clear called l) := by
  obtain ⟨hle, _, hwas⟩ := hl
  cases new with
  | latched => exact ⟨Nat.zero_le _, fun _ => rfl, fun h => ⟨rfl, by simp [lineStart, h]⟩⟩
  | pulsed =>
    cases old with
    | latched => exact ⟨Nat.zero_le _, fun _ => rfl, fun _ => ⟨rfl, rfl⟩⟩
    | pulsed =>
      have howed : (if clear = true then 0 else l.owed) ≤ 255 := by split <;> omega
      have hzero : held = true → (if clear = true then 0 else l.owed) = 0 := fun h => by
        rcases hclear h with hc | hw
        · rw [if_pos hc]
        · rw [(hwas hw).1, ite_self]
      simp only [lineStart]
      generalize (if clear = true then 0 else l.owed) = n at howed hzero
      split
      · next hsend =>
        have hfree : held = false := by simpa using (Bool.and_eq_true_iff.1 hsend).2
        exact ⟨Nat.le_trans (Nat.sub_le ..) howed, nofun, fun h => absurd (hfree.symm.trans h) nofun⟩
      · exact ⟨howed, nofun, fun h => ⟨hzero h, rfl⟩⟩

theorem linesSafe_startLines {s : State} (hs : linesSafe s = true) : linesSafe s.startLines = true := by
  obtain ⟨hA, hB⟩ := linesSafe_iff.1 hs
  refine linesSafe_iff.2 ⟨lineFits_lineStart hA nofun, lineFits_lineStart hB fun h => ?_⟩
  have hmerge : s.settings.merge = true := h
  cases hw : s.inForce.merge <;> simp [hmerge]

/-! ### Histories -/

theorem getLast?_trimZeros (l : List Sample) : (trimZeros l).getLast? ≠ some 0 := by
  induction l with
  | nil => simp [trimZeros]
  | cons x t ih =>
    have hx : trimZeros (x :: t) = if x = 0 && (trimZeros t).isEmpty then [] else x :: trimZeros t := rfl
    rw [hx]
    cases ht : trimZeros t with
    | nil =>
      by_cases h0 : x = 0
      · simp [h0]
      · rw [if_neg (by simpa using h0)]
        simpa using h0
    | cons y u =>
      rw [ht] at ih
      simpa using ih

theorem histFits_pushHist (x : Sample) (h : List Sample) : HistFits (pushHist x h) :=
  ⟨pushHist_length_le x h, getLast?_trimZeros _⟩

theorem mem_mapFrom {α β : Type} {f : Nat → α → β} {i : Nat} {l : List α} {y : β} (h : y ∈ mapFrom f i l) :
    ∃ n, ∃ a ∈ l, y = f n a := by
  induction l generalizing i with
  | nil => cases h
  | cons a l ih =>
    rcases List.mem_cons.1 h with rfl | h
    · exact ⟨i, a, List.mem_cons_self, rfl⟩
    · obtain ⟨n, a', ha', rfl⟩ := ih h
      exact ⟨n, a', List.mem_cons_of_mem _ ha', rfl⟩

/-- Slot positions made anew keep their form where every history does. -/
theorem slotsSafe_mapSlots {s : State} (hs : slotsSafe s = true) {f : Nat → Slot → Slot}
    (hf : ∀ p sl, HistFits sl.hist → HistFits (f p sl).hist) : slotsSafe (s.mapSlots f) = true := by
  obtain ⟨hlen, hfits⟩ := slotsSafe_iff.1 hs
  refine slotsSafe_iff.2 ⟨(mapFrom_length ..).trans hlen, fun sl hsl => ?_⟩
  obtain ⟨p, sl', hsl', rfl⟩ := mem_mapFrom hsl
  exact hf p sl' (hfits sl' hsl')

/-- The slot positions after the samples of a frame: the entering ones beside the shift (R48). -/
theorem takeSamples_slots (rIn sIn : List Sample) (s : State) :
    (takeSamples rIn sIn s).slots = ((s.mapSlots fun _ sl => shiftSlot sl).mapSlots fun p sl =>
      { sl with r1 := ((s.mapSlots fun _ sl => shiftSlot sl).entering rIn sIn p).1
                s1 := ((s.mapSlots fun _ sl => shiftSlot sl).entering rIn sIn p).2 }).slots := rfl

theorem slotsSafe_takeSamples {s : State} (hs : slotsSafe s = true) (rIn sIn : List Sample) :
    slotsSafe (takeSamples rIn sIn s) = true := by
  have hshift : slotsSafe (s.mapSlots fun _ sl => shiftSlot sl) = true :=
    slotsSafe_mapSlots hs fun _ sl _ => histFits_pushHist sl.r2 sl.hist
  rw [slotsSafe_iff, takeSamples_slots, ← slotsSafe_iff]
  exact slotsSafe_mapSlots hshift fun _ _ h => h

/-! ### Edits and boundaries -/

theorem forms_of_edit {b : Bool} {s t : State} (h : Edit b s t) (hs : Forms s) : Forms t := by
  cases h with
  | owed r => exact ⟨hs.pool, hs.time, hs.slots, linesSafe_owe hs.lines r⟩
  | pool h => exact ⟨h hs.pool, hs.time, hs.slots, hs.lines⟩
  | stamped n =>
    obtain ⟨hunit, _, hpointer, hphase⟩ := timeSafe_iff.1 hs.time
    exact ⟨hs.pool, timeSafe_iff.2 ⟨hunit, show 0 < s.stampUnit by omega, hpointer, hphase⟩, hs.slots, hs.lines⟩
  | rest h =>
    rw [← h] at hs
    exact ⟨hs.pool, hs.time, hs.slots, hs.lines⟩
  | _ => exact ⟨hs.pool, hs.time, hs.slots, hs.lines⟩

theorem forms_of_edits {b : Bool} {s t : State} (h : Edits b s t) (hs : Forms s) : Forms t :=
  edits_keep (fun _ _ => forms_of_edit) h hs

theorem forms_countedHighway {s : State} (hs : Forms s) (h : Nat) (y : Highway) : Forms (countedHighway h y s) :=
  ⟨hs.pool, hs.time, hs.slots, hs.lines⟩

theorem forms_makeObs (s : State) (h : Nat) (hs : Forms s) : Forms (makeObs s h) := by
  rcases makeObs_edits h s with he | ⟨y, _, he⟩
  · rwa [he]
  · exact forms_of_edits he (forms_countedHighway hs h y)

theorem poolWf_adapt {s : State} (hs : poolWf s.pool = true) (sel : List Nat) : poolWf (s.adapt sel) = true := by
  refine foldl_keepsProp (P := fun q => poolWf q = true) (fun q e hq => ?_) s.ctxs hs
  split
  · exact poolWf_adaptRecord _ _ _ hq
  · exact hq

theorem pointerAfter_lt {mode : SchedMode} {p : Nat} (hp : p < nContexts) (sel : List Nat) :
    pointerAfter mode p sel < nContexts := by
  unfold pointerAfter
  split
  · exact hp
  · exact hp
  · exact Nat.mod_lt _ (by decide)

theorem forms_measured (s : State) (hs : Forms s) : Forms (measured s) := by
  obtain ⟨hunit, hprescale, hpointer, _⟩ := timeSafe_iff.1 hs.time
  refine ⟨poolWf_adapt hs.pool _, timeSafe_iff.2 ⟨hunit, ?_, pointerAfter_lt hpointer _, Nat.zero_le _⟩, hs.slots, hs.lines⟩
  by_cases hd : s.stampDue = true
  · simpa [measured, hd] using hprescale
  · have : s.prescale + 1 < s.stampUnit := by simpa [State.stampDue] using hd
    simpa [measured, hd] using this

theorem forms_closeFrame {s : State} (hs : Forms s) : Forms (closeFrame s) :=
  closeFrame_induction forms_makeObs forms_measured (fun _ _ => forms_of_edit) hs

/-! ### A frame -/

theorem settle_boundaryDue (s : State) : (settle s).boundaryDue = s.boundaryDue := by simp [State.boundaryDue]

theorem blockBoundary_phase (s : State) : (blockBoundary s).phase = 0 := (sameFixed_of_edits (edits_blockBoundary s)).phase

theorem boundaryTaken_phase (s : State) : (boundaryTaken s).phase = if blockFrames ≤ s.phase then 0 else s.phase := by
  unfold boundaryTaken
  by_cases h : blockFrames ≤ s.phase <;> simp [State.boundaryDue, h, blockBoundary_phase]

theorem makeObs_phase (s : State) (h : Nat) : (makeObs s h).phase = s.phase := by
  rcases makeObs_edits h s with he | ⟨y, _, he⟩
  · rw [he]
  · exact (sameFixed_of_edits he).phase

theorem allObserved_phase (s : State) : (allObserved s).phase = s.phase :=
  foldl_keeps (fun t : State => t.phase) _ makeObs_phase _ s

/-- The end of a frame counts none, but returns to 0 after the eighth (R47). -/
theorem closeFrame_phase (s : State) : (closeFrame s).phase = if blockFrames ≤ s.phase then 0 else s.phase := by
  rw [(sameFixed_of_edits (edits_closeFrame s)).phase, boundaryTaken_phase, allObserved_phase]

theorem openFrame_phase (s : State) : (openFrame s).phase = s.phase := rfl

theorem forms_openFrame {s : State} (hs : Forms s) : Forms (openFrame s) :=
  ⟨hs.pool, hs.time, hs.slots, linesSafe_startLines hs.lines⟩

theorem forms_frameTaken {a : State} (ha : Forms a) (hphase : a.phase < blockFrames) (rIn sIn : List Sample)
    (marks : List SyncMarks) : Forms (frameTaken rIn sIn marks a) := by
  obtain ⟨hunit, hprescale, hpointer, _⟩ := timeSafe_iff.1 ha.time
  exact ⟨ha.pool, timeSafe_iff.2 ⟨hunit, hprescale, hpointer, hphase⟩, slotsSafe_takeSamples ha.slots rIn sIn, ha.lines⟩

theorem forms_frame {s : State} (hs : Forms s) (rIn sIn : List Sample) (marks : List SyncMarks) :
    Forms (frameTaken rIn sIn marks (atFrame s)) := by
  refine forms_frameTaken (forms_openFrame (forms_closeFrame hs)) ?_ rIn sIn marks
  rw [openFrame_phase, closeFrame_phase]
  split
  · decide
  · omega

/-! ### The commands that are more than edits -/

theorem forms_retire (s : State) (c : Nat) (hs : Forms s) : Forms (retire c s) := by
  rcases retire_cases c s with ⟨_, h⟩ | ⟨r, _, h⟩
  · rwa [h]
  · have hended : Forms (endSearch c false s) := forms_of_edits (edits_endSearch c s) hs
    exact forms_of_edits h ⟨hended.pool, hended.time, hended.slots, hended.lines⟩

theorem forms_silenced {s : State} (hs : Forms s) (h : Nat) : Forms (silenced h s) := by
  have hslots : slotsSafe (s.mapSlots fun p sl => if p / nSlots = h then { sl with hist := [] } else sl) = true := by
    refine slotsSafe_mapSlots hs.slots fun p sl hsl => ?_
    split
    · exact ⟨by simp, by simp⟩
    · exact hsl
  unfold silenced
  split <;> exact ⟨hs.pool, hs.time, hslots, hs.lines⟩

theorem forms_resetHighwayCmd (hw : Byte) {s : State} (hs : Forms s) : Forms (resetHighwayCmd hw s).1 := by
  unfold resetHighwayCmd
  split
  · exact hs
  · exact forms_silenced (foldl_keepsProp (P := Forms) forms_retire _ hs) _

theorem unitOfByte_eq_some {b : Byte} {n : Nat} (h : unitOfByte b = some n) : n = 1 ∨ n = 2 ∨ n = 4 ∨ n = 8 := by
  unfold unitOfByte at h
  split at h <;> simp at h <;> omega

theorem forms_configureCmd (e r m d u : Byte) {s : State} (hs : Forms s) : Forms (configureCmd e r m d u s).1 := by
  rcases configureCmd_cases e r m d u s with h | ⟨mode, n, hn, _, h⟩ <;> rw [h]
  · exact hs
  · obtain ⟨_, hprescale, hpointer, hphase⟩ := timeSafe_iff.1 hs.time
    have hunit := unitOfByte_eq_some hn
    have htime : timeSafe { s with stampUnit := n, prescale := if s.stampUnit = n then s.prescale else 0 } = true := by
      refine timeSafe_iff.2 ⟨hunit, ?_, hpointer, hphase⟩
      dsimp only
      split
      · omega
      · omega
    have hforms : Forms { s with stampUnit := n, prescale := if s.stampUnit = n then s.prescale else 0 } :=
      ⟨hs.pool, htime, hs.slots, hs.lines⟩
    rw [← configured_settings e r m mode n s] at hforms
    exact ⟨hforms.pool, hforms.time, hforms.slots, hforms.lines⟩

/-! ### Every step -/

/-- What `P` must bear for every step to keep it: power-on, the edits, the counting of an observation, the measures of a boundary, a
frame, and the three commands that are more than edits. -/
structure Borne (P : State → Prop) : Prop where
  pending : ∀ x l, P x → P { x with pending := l }
  reset : P State.reset
  edit : ∀ {b x y}, Edit b x y → P x → P y
  counted : ∀ {x h y}, P x → tget h x.sync = some y → P (countedHighway h y x)
  measured : ∀ x, P x → P (measured x)
  frame : ∀ {x} rIn sIn marks, P x → P (frameTaken rIn sIn marks (atFrame x))
  retire : ∀ x c, P x → P (retire c x)
  resetHighway : ∀ hw {x}, P x → P (resetHighwayCmd hw x).1
  configure : ∀ e r m d u {x}, P x → P (configureCmd e r m d u x).1

section
variable {P : State → Prop}

theorem Borne.edits (h : Borne P) {b : Bool} {s t : State} (he : Edits b s t) (hs : P s) : P t :=
  edits_keep (fun _ _ => h.edit) he hs

/-- A row of a sync transition. -/
theorem Borne.sync (hP : Borne P) {s t : State} {h : Nat}
    (ht : t = s ∨ ∃ y, tget h s.sync = some y ∧ Edits false (countedHighway h y s) t) (hs : P s) : P t := by
  rcases ht with rfl | ⟨y, hy, he⟩
  · exact hs
  · exact hP.edits he (hP.counted hs hy)

theorem Borne.takeSearchEnd (hP : Borne P) (ends : SearchUnit → Bool) {act : Nat → SearchUnit → Bool → State → State}
    (hact : ∀ u un b x, Edits b x (act u un b x)) (u : Nat) {s : State} (hs : P s) : P (takeSearchEnd ends act u s) := by
  have hdone : ∀ un b, P (act u un b (settle s)) := fun un b => hP.edits (hact ..) (hP.edits (edits_settle s) hs)
  rcases takeSearchEnd_cases ends act u s with h | ⟨_, x, b, _, _, h⟩ <;> rw [h]
  · exact hs
  · exact hdone x b

theorem Borne.retireCmd (hP : Borne P) (hw slot : Byte) {s : State} (hs : P s) : P (retireCmd hw slot s).1 := by
  rcases retireCmd_cases hw slot s with h | ⟨c, h⟩ <;> rw [h]
  · exact hs
  · exact hP.retire s c hs

theorem Borne.linkEffect (hP : Borne P) {i : Instr} {f : State → State × Reply} (h : linkEffect i = some f) {s : State}
    (hs : P s) : P (f s).1 := by
  rcases editsOnly_or i with ⟨h1, h2, h3⟩ | ⟨hw, slot, rfl⟩ | ⟨hw, rfl⟩ | ⟨e, r, m, d, u, rfl⟩
  · exact hP.edits (edits_linkEffect h h1 h2 h3 s) hs
  · exact Option.some.inj h ▸ hP.retireCmd hw slot hs
  · exact Option.some.inj h ▸ hP.resetHighway hw hs
  · exact Option.some.inj h ▸ hP.configure e r m d u hs

theorem Borne.command (hP : Borne P) {i : Instr} {f : State → State × Reply} (h : Machine.linkEffect i = some f) (n : Nat)
    {s : State} (hs : P s) : P (s.command n f) := by
  have hdone : P (f (settle s)).1 := hP.linkEffect h (hP.edits (edits_settle s) hs)
  exact hP.edits (b := false) (edits_rest rfl) hdone

theorem Borne.transaction (hP : Borne P) (bytes : List Byte) {s : State} (hs : P s) : P (transaction bytes s) := by
  rcases transaction_cases bytes s with ⟨r, l, h⟩ | ⟨i, f, _, hf, h⟩ <;> rw [h]
  · exact hP.edits (b := false) (edits_rest rfl) hs
  · exact hP.command hf _ hs

theorem Borne.exec (hP : Borne P) (i : Instr) {s : State} (hs : P s) : ∃ t, exec i s = .next t ∧ P t := by
  cases hf : Machine.linkEffect i with
  | some f =>
    obtain ⟨n, hn⟩ := exec_of_linkEffect hf
    exact ⟨_, hn s, hP.command hf n hs⟩
  | none =>
    cases i <;> simp only [Machine.linkEffect, reduceCtorEq] at hf
    case powerOn => exact ⟨_, rfl, hP.pending _ _ hP.reset⟩
    case frame rIn sIn marks => exact ⟨_, takes_frame rIn sIn marks s, hP.frame rIn sIn marks hs⟩
    case lock h => exact ⟨_, rfl, hP.sync (lock_edits h s) hs⟩
    case syncLost h => exact ⟨_, rfl, hP.sync (syncLost_edits h s) hs⟩
    case syncBack h => exact ⟨_, rfl, hP.sync (syncBack_edits h s) hs⟩
    case blockBoundary =>
      refine ⟨_, rfl, ?_⟩
      split
      · exact hP.edits (edits_blockBoundary _) (hP.measured _ (hP.edits (edits_settle s) hs))
      · exact hs
    case searchCompletion => exact ⟨_, rfl, hP.takeSearchEnd _ (fun _ _ _ _ => edits_completeSearch ..) _ hs⟩
    case searchFailure => exact ⟨_, rfl, hP.takeSearchEnd _ (fun _ _ _ _ => edits_failSearch ..) _ hs⟩
    case read => exact ⟨_, rfl, hP.edits (b := false) (edits_rest rfl) hs⟩
    case commandMessage => exact ⟨_, rfl, hP.transaction _ hs⟩
    all_goals exact ⟨_, rfl, hP.edits (edits_of_moves (moves_takeDue _ s)) hs⟩

theorem Borne.step (hP : Borne P) {s t : State} (hs : P s) (h : step s = .next t) : P t := by
  unfold Machine.step at h
  split at h
  · exact Host.Outcome.next.inj h ▸ hs
  · next i rest _ =>
    obtain ⟨t', ht, hkept⟩ := hP.exec i (hP.pending s rest hs)
    exact Host.Outcome.next.inj (ht.symm.trans h) ▸ hkept

end

theorem borne_syncSafe : Borne fun s => syncSafe s = true where
  pending _ _ h := h
  reset := by decide
  edit := syncSafe_of_edit
  counted := syncSafe_countedHighway
  measured := syncSafe_measured
  frame rIn sIn marks h := syncSafe_frameTaken (syncSafe_openFrame (syncSafe_closeFrame h)) rIn sIn marks
  retire := syncSafe_retire
  resetHighway := syncSafe_resetHighwayCmd
  configure := syncSafe_configureCmd

theorem forms_reset : Forms State.reset where
  pool := rfl
  time := rfl
  slots := slotsSafe_iff.2 ⟨List.length_replicate, fun _ h => by
    rw [List.eq_of_mem_replicate h]
    exact ⟨Nat.zero_le _, nofun⟩⟩
  lines := rfl

theorem borne_forms : Borne Forms where
  pending _ _ h := ⟨h.pool, h.time, h.slots, h.lines⟩
  reset := forms_reset
  edit := forms_of_edit
  counted h _ := forms_countedHighway h _ _
  measured := forms_measured
  frame rIn sIn marks h := forms_frame h rIn sIn marks
  retire := forms_retire
  resetHighway := forms_resetHighwayCmd
  configure := forms_configureCmd

/-- Settles O59: both groups of forms are borne by every part of a step. -/
theorem formsKept : Obligations.FormsKept := by
  refine ⟨fun s t hs h => borne_syncSafe.step hs h, fun s t hpool htime hslots hlines h => ?_⟩
  obtain ⟨hpool', htime', hslots', hlines'⟩ := borne_forms.step ⟨hpool, htime, hslots, hlines⟩ h
  exact ⟨hpool', htime', hslots', hlines'⟩

end Sys2Proof.FrameTiming


/-! PROOFS. The samples of the block in progress, one a worked frame, and no event that waits past a frame; O60. -/

namespace Sys2Proof.FrameTiming

open Sys2Proof Sys2Proof.Machine Sys2Proof.TapSegments

/-! ### The block in progress -/

/-- A search is at no end. -/
def Unended (un : SearchUnit) : Prop := un.qual < 64 ∧ un.blocks < 512

theorem unended_freshUnit (c n : Nat) (b : Bool) : Unended (freshUnit c n b) := ⟨Nat.zero_lt_succ _, Nat.zero_lt_succ _⟩

/-- A block begun and so far worked holds one sample of each kind for each of its `n` frames. -/
def HoldsSamples (n : Nat) (b : BlockData) : Prop :=
  b.started = true → b.worked = true → b.sIn.length = n ∧ b.resid.length = n ∧ b.ref.length = n

/-- A unit is at no end once a frame of the block is taken; its context is bound once its first block has begun, and it holds one
residual for each frame that its record worked. -/
def UnitFits (s : State) (un : SearchUnit) : Prop :=
  (s.phase = 0 ∨ Unended un) ∧
  (un.begun = true → ∃ r, s.rec? un.ctx = some r ∧
    (r.blk.started = true → r.blk.worked = true → un.resid.length = s.phase))

/-- `blockSafe`, in a state whose contexts' numbers rise. -/
structure BlockForms (s : State) : Prop where
  rises : rising s.ctxs = true
  due : s.due = [] ∨ s.phase = 0
  records : ∀ e ∈ s.ctxs, HoldsSamples s.phase e.2.blk
  units : ∀ e ∈ s.units, UnitFits s e.2

theorem blockForms_iff {s : State} : BlockForms s ↔ rising s.ctxs = true ∧ blockSafe s = true := by
  have himp : ∀ (b : Bool) (p : Prop), (b = false ∨ p) ↔ (b = true → p) := fun b p => by cases b <;> simp
  have himp' : ∀ (b c : Bool) (p : Prop), ((b = true → c = false) ∨ p) ↔ (b = true → c = true → p) := fun b c p => by
    cases b <;> cases c <;> simp
  have hparts : blockSafe s = true ↔ (s.due = [] ∨ s.phase = 0) ∧ (∀ e ∈ s.ctxs, HoldsSamples s.phase e.2.blk) ∧
      ∀ e ∈ s.units, UnitFits s e.2 := by
    simp only [blockSafe, HoldsSamples, UnitFits, Unended, Bool.and_eq_true, Bool.or_eq_true, Bool.not_eq_true', List.all_eq_true,
      Option.any_eq_true, List.isEmpty_iff, beq_iff_eq, decide_eq_true_eq, Bool.and_eq_false_iff, himp, himp', and_assoc]
  rw [hparts]
  exact ⟨fun h => ⟨h.rises, h.due, h.records, h.units⟩, fun ⟨h1, h2, h3, h4⟩ => ⟨h1, h2, h3, h4⟩⟩

theorem unitFits_congr {s t : State} {un : SearchUnit} (h : UnitFits s un) (hphase : t.phase = s.phase)
    (hrec : ∀ r, s.rec? un.ctx = some r → ∃ q, t.rec? un.ctx = some q ∧ q.blk = r.blk) : UnitFits t un := by
  obtain ⟨hend, hbegun⟩ := h
  refine ⟨hphase ▸ hend, fun hb => ?_⟩
  obtain ⟨r, hr, hlen⟩ := hbegun hb
  obtain ⟨q, hq, hblk⟩ := hrec r hr
  exact ⟨q, hq, by rwa [hblk, hphase]⟩

/-- An edit keeps the block in progress; one within the event of a boundary does so before the first frame of the block. -/
theorem blockForms_of_edit {b : Bool} {s t : State} (h : Edit b s t) (hs : BlockForms s) (hb : b = true → s.phase = 0) :
    BlockForms t := by
  cases h with
  | @record c r q hr _ hblk =>
    have hrec : s.rec? c = some r := tget_of_mem hs.rises hr
    refine ⟨rising_tset hs.rises, hs.due, fun e he => ?_, fun e he => unitFits_congr (hs.units e he) rfl fun x hx => ?_⟩
    · rcases mem_tset he with rfl | he
      · exact hblk ▸ hs.records _ hr
      · exact hs.records e he
    · by_cases hc : e.2.ctx = c
      · rw [hc, hrec] at hx
        exact ⟨q, by rw [hc, rec?_setRec_same], Option.some.inj hx ▸ hblk⟩
      · exact ⟨x, by rw [rec?_setRec_other hc, hx], rfl⟩
  | @bound c q hc _ hstarted =>
    refine ⟨rising_tset hs.rises, hs.due, fun e he => ?_, fun e he => unitFits_congr (hs.units e he) rfl fun x hx => ?_⟩
    · rcases mem_tset he with rfl | he
      · exact fun h => absurd (hstarted.symm.trans h) nofun
      · exact hs.records e he
    · have hne : e.2.ctx ≠ c := fun h => by simp [h, hc] at hx
      exact ⟨x, by rw [rec?_setRec_other hne, hx], rfl⟩
  | due d h => exact ⟨hs.rises, .inr (hb h), hs.records, hs.units⟩
  | @searching c r u n hr =>
    refine ⟨hs.rises, hs.due, hs.records, fun e he => ?_⟩
    rcases mem_tset he with rfl | he
    · exact ⟨.inr (unended_freshUnit ..), fun hbegun => ⟨r, hr, fun _ _ => (hb hbegun).symm⟩⟩
    · exact hs.units e he
  | idle u => exact ⟨hs.rises, hs.due, hs.records, fun e he => hs.units e (mem_tdel.1 he).1⟩
  | rest h =>
    rw [← h] at hs
    exact ⟨hs.rises, hs.due, hs.records, hs.units⟩
  | owed | pool | stamped => exact ⟨hs.rises, hs.due, hs.records, hs.units⟩

theorem blockForms_of_edits {b : Bool} {s t : State} (h : Edits b s t) (hs : BlockForms s) (hb : b = true → s.phase = 0) :
    BlockForms t := by
  induction h with
  | refl => exact hs
  | tail he hedit ih => exact blockForms_of_edit hedit ih fun h => (sameFixed_of_edits he).phase.trans (hb h)

theorem blockForms_settle {s : State} (hs : BlockForms s) : BlockForms (settle s) := by
  rcases hs.due with h | h
  · rwa [settle_of_due_nil h]
  · exact blockForms_of_edits (edits_settle s) hs fun _ => h

/-! ### The boundary -/

theorem recordEnd_blk (p : Profile) (h : List Sample) (r : Record) : (recordEnd p h r).blk = openBlock r.blk := by
  unfold recordEnd
  split
  · rfl
  · split <;> rfl

/-- A unit's block end: nothing where its context is VACANT; otherwise it holds no residual of the block that opens. -/
theorem unitEnd_cases (s : State) (un : SearchUnit) :
    (s.rec? un.ctx = none ∧ s.unitEnd un = un) ∨
    ∃ r, s.rec? un.ctx = some r ∧ (s.unitEnd un).ctx = un.ctx ∧ (s.unitEnd un).resid = [] := by
  unfold State.unitEnd
  cases hr : s.rec? un.ctx with
  | none => exact .inl ⟨rfl, rfl⟩
  | some r =>
    refine .inr ⟨r, rfl, ?_⟩
    cases un.begun
    · exact ⟨rfl, rfl⟩
    · simp only [Bool.not_true, Bool.false_eq_true, if_false]
      split <;> exact ⟨rfl, rfl⟩

theorem rec?_measured (s : State) (c : Nat) :
    (measured s).rec? c = (s.rec? c).map (s.boundaryRecord s.selection c) := tget_map_key ..

theorem blockForms_measured {s : State} (hs : BlockForms s) : BlockForms (measured s) := by
  refine ⟨rising_map _ hs.rises, .inr rfl, fun e he => ?_, fun e he => ⟨.inl rfl, ?_⟩⟩
  · obtain ⟨d, _, rfl⟩ := List.mem_map.1 he
    have hblk : (s.boundaryRecord s.selection d.1 d.2).blk = openBlock d.2.blk := recordEnd_blk ..
    exact fun _ _ => hblk ▸ ⟨rfl, rfl, rfl⟩
  · obtain ⟨d, hd, rfl⟩ := List.mem_map.1 he
    dsimp only
    rcases unitEnd_cases s d.2 with ⟨hnone, h⟩ | ⟨r, hr, hctx, hresid⟩
    · rw [h]
      intro hbegun
      obtain ⟨r, hr, _⟩ := (hs.units d hd).2 hbegun
      exact absurd (hnone.symm.trans hr) nofun
    · rw [hctx, hresid, rec?_measured, hr]
      exact fun _ => ⟨_, rfl, fun _ _ => rfl⟩

theorem blockForms_boundary {s : State} (hs : BlockForms s) : BlockForms (blockBoundary s) :=
  blockForms_of_edits (edits_blockBoundary s) (blockForms_measured hs) fun _ => rfl

theorem blockForms_boundaryTaken {s : State} (hs : BlockForms s) : BlockForms (boundaryTaken s) := by
  unfold boundaryTaken
  split
  · exact blockForms_boundary (blockForms_settle hs)
  · exact hs

/-! ### The end of a frame -/

theorem blockForms_countedHighway {s : State} (hs : BlockForms s) (h : Nat) (y : Highway) : BlockForms (countedHighway h y s) :=
  ⟨hs.rises, hs.due, hs.records, hs.units⟩

/-- An observation made, by a row or by the next FRAME. -/
theorem blockForms_observed {s t : State} {h : Nat} (hs : BlockForms s)
    (ht : t = s ∨ ∃ y, tget h s.sync = some y ∧ Edits false (countedHighway h y s) t) : BlockForms t := by
  rcases ht with rfl | ⟨y, _, he⟩
  · exact hs
  · exact blockForms_of_edits he (blockForms_countedHighway hs h y) nofun

theorem blockForms_allObserved {s : State} (hs : BlockForms s) : BlockForms (allObserved s) :=
  foldl_keepsProp (P := BlockForms) (fun x h hx => blockForms_observed hx (makeObs_edits h x)) _ hs

/-- What the end of a frame does to unit `u`: a search at its end ends, and frees the unit; nothing happens otherwise. -/
theorem finishUnit_cases (s : State) (u : Nat) :
    (∃ x un, tget u s.units = some un ∧ ¬Unended un ∧ Edits true s x ∧ finishUnit s u = freeUnit u true x) ∨
    (finishUnit s u = s ∧ ∀ un, tget u s.units = some un → Unended un) := by
  unfold finishUnit
  cases hu : tget u s.units with
  | none => exact .inr ⟨rfl, nofun⟩
  | some un =>
    dsimp only
    by_cases hc : un.complete = true
    · have hqual : 64 ≤ un.qual := by simpa [SearchUnit.complete] using hc
      rw [if_pos hc]
      exact .inl ⟨_, un, rfl, fun h => absurd h.1 (by omega), (edits_handOff un s).trans (edits_setLink ..), rfl⟩
    · have hqual : un.qual < 64 := by simpa [SearchUnit.complete] using hc
      rw [if_neg hc]
      by_cases hf : un.failed = true
      · have hblocks : 512 ≤ un.blocks := (by simpa [SearchUnit.failed] using hf : 512 ≤ un.blocks ∧ un.qual < 64).1
        rw [if_pos hf]
        exact .inl ⟨_, un, rfl, fun h => absurd h.2 (by omega), (edits_raise ..).trans (edits_setLink ..), rfl⟩
      · have hblocks : un.blocks < 512 := by
          have : 512 ≤ un.blocks → ¬un.qual < 64 := by simpa [SearchUnit.failed] using hf
          omega
        rw [if_neg hf]
        exact .inr ⟨rfl, fun x hx => Option.some.inj hx ▸ ⟨hqual, hblocks⟩⟩

theorem blockForms_finishUnit (s : State) (u : Nat) (hs : BlockForms s) : BlockForms (finishUnit s u) := by
  rcases finishUnit_cases s u with ⟨x, un, hu, hended, he, h⟩ | ⟨h, _⟩ <;> rw [h]
  · have hphase : s.phase = 0 := (hs.units _ (mem_of_tget hu)).1.resolve_right hended
    exact blockForms_of_edits (he.trans (edits_freeUnit u x)) hs fun _ => hphase
  · exact hs

theorem blockForms_closeFrame {s : State} (hs : BlockForms s) : BlockForms (closeFrame s) :=
  foldl_keepsProp (P := BlockForms) blockForms_finishUnit _
    (blockForms_settle (blockForms_boundaryTaken (blockForms_allObserved hs)))

theorem finishUnit_due (s : State) (u : Nat) : (finishUnit s u).due = s.due := by
  unfold finishUnit
  split
  · rfl
  · split
    · simp
    · split <;> simp

theorem closeFrame_due (s : State) : (closeFrame s).due = [] := by
  rw [closeFrame_eq]
  exact (foldl_keeps (fun t : State => t.due) _ finishUnit_due _ _).trans (settle_due _)

/-- The units numbered below `n`, and those of no number that a unit has, are at no end. -/
def FinishedBelow (n : Nat) (s : State) : Prop :=
  rising s.units = true ∧ ∀ e ∈ s.units, e.1 < n ∨ nUnits ≤ e.1 → Unended e.2

theorem finishedBelow_of_edit {n : Nat} {b : Bool} {s t : State} (h : Edit b s t) (hs : FinishedBelow n s) :
    FinishedBelow n t := by
  obtain ⟨hrise, hsmall⟩ := hs
  cases h with
  | searching u n hr =>
    refine ⟨rising_tset hrise, fun e he hn => ?_⟩
    rcases mem_tset he with rfl | he
    · exact unended_freshUnit ..
    · exact hsmall e he hn
  | idle u => exact ⟨rising_tdel hrise, fun e he => hsmall e (mem_tdel.1 he).1⟩
  | rest h =>
    rw [← h] at hrise hsmall
    exact ⟨hrise, hsmall⟩
  | _ => exact ⟨hrise, hsmall⟩

theorem finishedBelow_of_edits {n : Nat} {b : Bool} {s t : State} (h : Edits b s t) (hs : FinishedBelow n s) :
    FinishedBelow n t := edits_keep (fun _ _ => finishedBelow_of_edit) h hs

theorem finishedBelow_freeUnit {n : Nat} {s : State} (hs : FinishedBelow n s) (b : Bool) :
    FinishedBelow (n + 1) (freeUnit n b s) := by
  have hidle : FinishedBelow (n + 1) { s with units := tdel n s.units } := by
    refine ⟨rising_tdel hs.1, fun e he hn => ?_⟩
    obtain ⟨hmem, hne⟩ := mem_tdel.1 he
    exact hs.2 e hmem (by omega)
  rcases freeUnit_cases n b s with ⟨_, h⟩ | ⟨c, _, _, h⟩ <;> rw [h]
  · exact hidle
  · exact finishedBelow_of_edits (edits_startSearch ..) hidle

theorem finishedBelow_finishUnit {n : Nat} {s : State} (hs : FinishedBelow n s) : FinishedBelow (n + 1) (finishUnit s n) := by
  rcases finishUnit_cases s n with ⟨x, un, _, _, he, h⟩ | ⟨h, hunended⟩ <;> rw [h]
  · exact finishedBelow_freeUnit (finishedBelow_of_edits he hs) true
  · refine ⟨hs.1, fun e he hn => ?_⟩
    by_cases hk : e.1 = n
    · exact hunended e.2 (tget_of_mem hs.1 (hk ▸ he))
    · exact hs.2 e he (by omega)

/-- The numbers of a table of units rise and are those of the four units. -/
def UnitsNumbered (m : List (Nat × SearchUnit)) : Prop := rising m = true ∧ ∀ e ∈ m, e.1 < nUnits

theorem finishedBelow_zero {s : State} (h : UnitsNumbered s.units) : FinishedBelow 0 s :=
  ⟨h.1, fun e he hn => by have := h.2 e he; omega⟩

theorem makeObs_units (s : State) (h : Nat) : (makeObs s h).units = s.units := by
  rcases makeObs_cases h s with ⟨he, _⟩ | ⟨y, _, ⟨_, he⟩ | ⟨_, he⟩ | ⟨_, _, he⟩⟩ <;> simp [he, countedHighway]

theorem closeFrame_eq_finishUnits (s : State) : closeFrame s =
    finishUnit (finishUnit (finishUnit (finishUnit (settle (boundaryTaken (allObserved s))) 0) 1) 2) 3 := by
  rw [closeFrame_eq]
  generalize settle (boundaryTaken (allObserved s)) = x
  rfl

/-- At the end of a frame every search that was at its end has ended. -/
theorem unended_closeFrame {s : State} (hs : BlockForms s) (hunits : UnitsNumbered s.units) :
    ∀ e ∈ (closeFrame s).units, Unended e.2 := by
  have ho : UnitsNumbered (allObserved s).units := by
    have : (allObserved s).units = s.units := foldl_keeps (fun t : State => t.units) _ makeObs_units _ _
    rwa [this]
  have hmeasured : ∀ x : State, UnitsNumbered x.units → UnitsNumbered (measured x).units := fun x hx => by
    refine ⟨rising_map (fun _ un => x.unitEnd un) hx.1, fun e he => ?_⟩
    obtain ⟨d, hd, rfl⟩ := List.mem_map.1 he
    exact hx.2 d hd
  have hbefore : FinishedBelow 0 (settle (boundaryTaken (allObserved s))) := by
    refine finishedBelow_of_edits (edits_settle _) ?_
    have hob := blockForms_allObserved hs
    unfold boundaryTaken
    split
    · next hdue =>
      have hphase : blockFrames ≤ (allObserved s).phase := by simpa [State.boundaryDue] using hdue
      have hnone : (allObserved s).due = [] := hob.due.resolve_right fun h => absurd (h ▸ hphase) (by decide)
      rw [settle_of_due_nil hnone]
      exact finishedBelow_of_edits (edits_blockBoundary _) (finishedBelow_zero (hmeasured _ ho))
    · exact finishedBelow_zero ho
  have hafter : FinishedBelow 4 (closeFrame s) := by
    rw [closeFrame_eq_finishUnits]
    exact finishedBelow_finishUnit (finishedBelow_finishUnit (finishedBelow_finishUnit (finishedBelow_finishUnit hbefore)))
  exact fun e he => hafter.2 e he (Nat.lt_or_ge e.1 4)

/-! ### A frame -/

theorem blockForms_openFrame {s : State} (hs : BlockForms s) : BlockForms (openFrame s) := by
  have hblk : ∀ r : Record, (openRecord s.startLines r).blk.started = r.blk.started ∧
      (openRecord s.startLines r).blk.worked = r.blk.worked ∧ (openRecord s.startLines r).blk.sIn = r.blk.sIn ∧
      (openRecord s.startLines r).blk.resid = r.blk.resid ∧ (openRecord s.startLines r).blk.ref = r.blk.ref := fun r => by
    unfold openRecord
    dsimp only
    split <;> exact ⟨rfl, rfl, rfl, rfl, rfl⟩
  refine ⟨rising_map (fun _ => openRecord s.startLines) hs.rises, hs.due, fun e he => ?_, fun e he => ?_⟩
  · obtain ⟨d, hd, rfl⟩ := List.mem_map.1 he
    obtain ⟨h1, h2, h3, h4, h5⟩ := hblk d.2
    have := hs.records d hd
    rw [HoldsSamples] at this ⊢
    rwa [h1, h2, h3, h4, h5]
  · obtain ⟨hend, hbegun⟩ := hs.units e he
    refine ⟨hend, fun hb => ?_⟩
    obtain ⟨r, hr, hlen⟩ := hbegun hb
    obtain ⟨h1, h2, _⟩ := hblk r
    refine ⟨openRecord s.startLines r, ?_, by rwa [h1, h2]⟩
    exact (tget_map (openRecord s.startLines) e.2.ctx s.ctxs).trans (by rw [show tget e.2.ctx s.ctxs = some r from hr]; rfl)

/-- A record's frame: none of a block not begun, one sample more of each kind where it is worked, and otherwise a suspended
block. -/
theorem frameRecord_blk (s : State) (rIn sIn : List Sample) (r : Record) :
    (r.blk.started = false ∧ s.frameRecord rIn sIn r = r) ∨
    (r.blk.started = true ∧ s.locked r.id.hw = true ∧ (s.frameRecord rIn sIn r).blk.worked = r.blk.worked ∧
      (s.frameRecord rIn sIn r).blk.sIn.length = r.blk.sIn.length + 1 ∧
      (s.frameRecord rIn sIn r).blk.resid.length = r.blk.resid.length + 1 ∧
      (s.frameRecord rIn sIn r).blk.ref.length = r.blk.ref.length + 1) ∨
    (s.frameRecord rIn sIn r).blk.worked = false := by
  unfold State.frameRecord
  cases hst : r.blk.started with
  | false => exact .inl ⟨rfl, rfl⟩
  | true =>
    refine .inr ?_
    cases hl : s.locked r.id.hw with
    | true => exact .inl ⟨rfl, rfl, rfl, List.length_append, List.length_append, List.length_append⟩
    | false => exact .inr rfl

theorem holdsSamples_frameRecord {n : Nat} {r : Record} (h : HoldsSamples n r.blk) (s : State) (rIn sIn : List Sample) :
    HoldsSamples (n + 1) (s.frameRecord rIn sIn r).blk := by
  intro hst hw
  rcases frameRecord_blk s rIn sIn r with ⟨hst', he⟩ | ⟨hst', _, hw', h1, h2, h3⟩ | hw'
  · rw [he, hst'] at hst
    cases hst
  · obtain ⟨k1, k2, k3⟩ := h hst' (hw' ▸ hw)
    exact ⟨by omega, by omega, by omega⟩
  · rw [hw'] at hw
    cases hw

theorem frameUnit_fields (s : State) (sIn : List Sample) (un : SearchUnit) :
    (s.frameUnit sIn un).ctx = un.ctx ∧ (s.frameUnit sIn un).begun = un.begun ∧ (s.frameUnit sIn un).qual = un.qual ∧
      (s.frameUnit sIn un).blocks = un.blocks := by
  unfold State.frameUnit
  split
  · exact ⟨rfl, rfl, rfl, rfl⟩
  · split <;> exact ⟨rfl, rfl, rfl, rfl⟩

theorem frameUnit_resid_length {s : State} {un : SearchUnit} {r : Record} (hr : s.rec? un.ctx = some r) (hb : un.begun = true)
    (hst : r.blk.started = true) (hl : s.locked r.id.hw = true) (sIn : List Sample) :
    (s.frameUnit sIn un).resid.length = un.resid.length + 1 := by
  simp [State.frameUnit, hr, hb, hst, hl]

/-- The state in which the records and units do their work of a frame: outputs and histories have moved on. -/
def shifted (a : State) : State := a.mapSlots fun _ sl => shiftSlot sl

theorem rec?_frameTaken (rIn sIn : List Sample) (marks : List SyncMarks) (a : State) (c : Nat) :
    (frameTaken rIn sIn marks a).rec? c = (a.rec? c).map ((shifted a).frameRecord rIn sIn) :=
  tget_map ((shifted a).frameRecord rIn sIn) c a.ctxs

theorem blockForms_frameTaken {a : State} (ha : BlockForms a) (hdue : a.due = []) (hunended : ∀ e ∈ a.units, Unended e.2)
    (rIn sIn : List Sample) (marks : List SyncMarks) : BlockForms (frameTaken rIn sIn marks a) := by
  refine ⟨rising_map (fun _ => (shifted a).frameRecord rIn sIn) ha.rises, .inl hdue, fun e he => ?_, fun e he => ?_⟩
  · obtain ⟨d, hd, rfl⟩ := List.mem_map.1 he
    exact holdsSamples_frameRecord (ha.records d hd) _ rIn sIn
  · obtain ⟨d, hd, rfl⟩ := List.mem_map.1 he
    obtain ⟨hctx, hbegun, hqual, hblocks⟩ := frameUnit_fields (shifted a) sIn d.2
    have hend : Unended ((shifted a).frameUnit sIn d.2) := by
      rw [Unended, hqual, hblocks]
      exact hunended d hd
    refine ⟨.inr hend, fun hb => ?_⟩
    have hb : d.2.begun = true := hbegun ▸ hb
    obtain ⟨r, hr, hlen⟩ := (ha.units d hd).2 hb
    refine ⟨(shifted a).frameRecord rIn sIn r, ?_, fun hst hw => ?_⟩
    · show (frameTaken rIn sIn marks a).rec? ((shifted a).frameUnit sIn d.2).ctx = _
      rw [hctx, rec?_frameTaken, hr]
      rfl
    · rcases frameRecord_blk (shifted a) rIn sIn r with ⟨hst', he⟩ | ⟨hst', hl, hw', _⟩ | hw'
      · rw [he, hst'] at hst
        cases hst
      · have hgrow := frameUnit_resid_length (s := shifted a) hr hb hst' hl sIn
        have := hlen hst' (hw' ▸ hw)
        show ((shifted a).frameUnit sIn d.2).resid.length = a.phase + 1
        omega
      · rw [hw'] at hw
        cases hw

theorem blockForms_frame {s : State} (hs : BlockForms s) (hunits : UnitsNumbered s.units) (rIn sIn : List Sample)
    (marks : List SyncMarks) : BlockForms (frameTaken rIn sIn marks (atFrame s)) := by
  have hdue := closeFrame_due s
  have hunended := unended_closeFrame hs hunits
  have hclosed := blockForms_closeFrame hs
  unfold atFrame
  generalize closeFrame s = v at hdue hunended hclosed
  exact blockForms_frameTaken (blockForms_openFrame hclosed) hdue hunended rIn sIn marks

end Sys2Proof.FrameTiming


/-! PROOFS. Retirement and the samples of the block in progress: no search outlives its context; O60. -/

namespace Sys2Proof.FrameTiming

open Sys2Proof Sys2Proof.Machine Sys2Proof.TapSegments

/-! ### Units, queue and links -/

/-- The context of each unit is SEARCHING with that unit, and each queued one is QUEUED (R112). -/
structure LinksAgree (s : State) : Prop where
  units : ∀ e ∈ s.units, ∃ r, s.rec? e.2.ctx = some r ∧ r.link = .searching e.1
  queue : ∀ c ∈ s.queue, ∃ r, s.rec? c = some r ∧ r.link = .queued

theorem linksAgree_of_searchSafe {s : State} (h : searchSafe s = true) : LinksAgree s ∧ UnitsNumbered s.units := by
  simp only [searchSafe, Bool.and_eq_true, List.all_eq_true, Option.any_eq_true, decide_eq_true_eq, beq_iff_eq] at h
  obtain ⟨⟨⟨⟨⟨⟨_, hrise⟩, _⟩, _⟩, hqueue⟩, hunits⟩, _⟩ := h
  refine ⟨⟨fun e he => ?_, hqueue⟩, hrise, fun e he => (hunits e he).1.1.1⟩
  obtain ⟨_, r, hr, hlink, _⟩ := hunits e he
  exact ⟨r, hr, hlink⟩

section
variable {s : State} {c : Nat} {r : Record}

theorem LinksAgree.unit_ctx_ne (hs : LinksAgree s) (hr : s.rec? c = some r) {e : Nat × SearchUnit} (he : e ∈ s.units)
    (hl : r.link ≠ .searching e.1) : e.2.ctx ≠ c := fun hc => by
  obtain ⟨q, hq, hql⟩ := hs.units e he
  rw [hc, hr] at hq
  exact hl (Option.some.inj hq ▸ hql)

theorem LinksAgree.queued_ne (hs : LinksAgree s) (hr : s.rec? c = some r) (hl : r.link ≠ .queued) {d : Nat} (hd : d ∈ s.queue) :
    d ≠ c := fun hc => by
  obtain ⟨q, hq, hql⟩ := hs.queue d hd
  rw [hc, hr] at hq
  exact hl (Option.some.inj hq ▸ hql)

/-- A record made anew with its link kept. -/
theorem linksAgree_setRec (hs : LinksAgree s) (hr : s.rec? c = some r) {q : Record} (hlink : q.link = r.link) :
    LinksAgree (s.setRec c q) := by
  have hlook : ∀ d l, (∃ x, s.rec? d = some x ∧ x.link = l) → ∃ x, (s.setRec c q).rec? d = some x ∧ x.link = l := by
    rintro d l ⟨x, hx, hxl⟩
    by_cases hd : d = c
    · rw [hd, hr] at hx
      exact ⟨q, by rw [hd, rec?_setRec_same], by rw [hlink, Option.some.inj hx, hxl]⟩
    · exact ⟨x, by rw [rec?_setRec_other hd, hx], hxl⟩
  exact ⟨fun e he => hlook _ _ (hs.units e he), fun d hd => hlook _ _ (hs.queue d hd)⟩

/-- A context whose search link is NONE or QUEUED starts a search. -/
theorem linksAgree_startSearch (hs : LinksAgree s) (hr : s.rec? c = some r) (hl : ∀ v, r.link ≠ .searching v) (u : Nat) (b : Bool) :
    LinksAgree (startSearch u c b s) := by
  rw [startSearch_eq hr]
  refine ⟨fun e he => ?_, fun d hd => ?_⟩
  · rcases mem_tset he with rfl | he
    · exact ⟨_, tget_tset_same .., rfl⟩
    · obtain ⟨q, hq, hql⟩ := hs.units e he
      exact ⟨q, (tget_tset_other (hs.unit_ctx_ne hr he (hl _)) ..).trans hq, hql⟩
  · obtain ⟨hmem, hne⟩ := List.mem_filter.1 hd
    obtain ⟨q, hq, hql⟩ := hs.queue d hmem
    exact ⟨q, (tget_tset_other (by simpa using hne) ..).trans hq, hql⟩

theorem linksAgree_requestSearch (hs : LinksAgree s) (c : Nat) (b : Bool) : LinksAgree (requestSearch c b s) := by
  rcases requestSearch_cases c b s with h | ⟨r, hr, _, hl, ⟨u, _, h⟩ | ⟨_, h⟩⟩ <;> rw [h]
  · exact hs
  · exact linksAgree_startSearch hs hr (by simp [hl]) u b
  · rw [setLink_eq hr]
    refine ⟨fun e he => ?_, fun d hd => ?_⟩
    · obtain ⟨q, hq, hql⟩ := hs.units e he
      exact ⟨q, (tget_tset_other (hs.unit_ctx_ne hr he (by simp [hl])) ..).trans hq, hql⟩
    · by_cases hdc : d = c
      · subst hdc
        exact ⟨_, tget_tset_same .., rfl⟩
      · have hmem : d ∈ s.queue := (List.mem_append.1 hd).resolve_right (by simpa using hdc)
        obtain ⟨q, hq, hql⟩ := hs.queue d hmem
        exact ⟨q, (tget_tset_other hdc ..).trans hq, hql⟩

/-- The end of a context's search leaves units, queue and links in agreement, and its link NONE. -/
theorem linksAgree_endSearch (hs : LinksAgree s) (hr : s.rec? c = some r) (b : Bool) :
    LinksAgree (endSearch c b s) ∧ ∃ q, (endSearch c b s).rec? c = some q ∧ q.link = .none := by
  have hset : setLink .none c s = s.setRec c { r with link := .none } := setLink_eq hr
  have hown : (setLink .none c s).rec? c = some { r with link := .none } := by rw [hset, rec?_setRec_same]
  have hother : ∀ d, d ≠ c → (setLink .none c s).rec? d = s.rec? d := fun d hd => by rw [hset, rec?_setRec_other hd]
  rcases endSearch_cases c b s with ⟨hnone, _⟩ | ⟨q, hq, ⟨hl, h⟩ | ⟨hl, h⟩ | ⟨u, hl, h⟩⟩
  · exact absurd (hnone.symm.trans hr) nofun
  all_goals obtain rfl := Option.some.inj (hr.symm.trans hq)
  · rw [h]
    exact ⟨hs, r, hr, hl⟩
  · rw [h]
    refine ⟨⟨fun e he => ?_, fun d hd => ?_⟩, _, hown, rfl⟩
    · rw [show (setLink .none c s).units = s.units by simp] at he
      obtain ⟨q, hq, hql⟩ := hs.units e he
      exact ⟨q, (hother _ (hs.unit_ctx_ne hr he (by simp [hl]))).trans hq, hql⟩
    · obtain ⟨hmem, hne⟩ := List.mem_filter.1 hd
      obtain ⟨q, hq, hql⟩ := hs.queue d hmem
      exact ⟨q, (hother d (by simpa using hne)).trans hq, hql⟩
  · have hqne : ∀ d ∈ s.queue, d ≠ c := fun d hd => hs.queued_ne hr (by simp [hl]) hd
    have hidle : LinksAgree { setLink .none c s with units := tdel u (setLink .none c s).units } := by
      refine ⟨fun e he => ?_, fun d hd => ?_⟩
      · obtain ⟨hmem, hne⟩ := mem_tdel.1 he
        rw [show (setLink .none c s).units = s.units by simp] at hmem
        obtain ⟨q, hq, hql⟩ := hs.units e hmem
        exact ⟨q, (hother _ (hs.unit_ctx_ne hr hmem (by simpa [hl] using Ne.symm hne))).trans hq, hql⟩
      · have hmem : d ∈ s.queue := by simpa using hd
        obtain ⟨q, hq, hql⟩ := hs.queue d hmem
        exact ⟨q, (hother d (hqne d hmem)).trans hq, hql⟩
    rw [h]
    rcases freeUnit_cases u b (setLink .none c s) with ⟨_, hf⟩ | ⟨d, l, hqueue, hf⟩ <;> rw [hf]
    · exact ⟨hidle, _, hown, rfl⟩
    · have hd : d ∈ (setLink .none c s).queue := hqueue ▸ List.mem_cons_self
      obtain ⟨q, hq, hql⟩ := hidle.queue d hd
      refine ⟨linksAgree_startSearch hidle hq (by simp [hql]) u b, { r with link := .none }, ?_, rfl⟩
      rw [startSearch_eq hq]
      exact (tget_tset_other (Ne.symm (hqne d (by simpa using hd))) ..).trans hown

end

theorem linksAgree_of_move {b : Bool} {s t : State} (h : Move b s t) (hs : LinksAgree s) : LinksAgree t := by
  cases h with
  | record hr _ _ hlink => exact linksAgree_setRec hs hr hlink
  | requested c => exact linksAgree_requestSearch hs c b
  | ended c =>
    cases hr : s.rec? c with
    | none => simpa [endSearch, hr] using hs
    | some r => exact (linksAgree_endSearch hs hr b).1
  | owed | pool | stamped | due => exact ⟨hs.units, hs.queue⟩

theorem linksAgree_settle {s : State} (hs : LinksAgree s) : LinksAgree (settle s) := by
  refine Relation.ReflTransGen.rec (motive := fun t _ => LinksAgree t) hs ?_ (moves_settle s)
  exact fun _ hmove ih => linksAgree_of_move hmove ih

/-! ### RETIRE and RESET HIGHWAY -/

/-- A retirement leaves no unit with a vacated context. -/
theorem retire_keeps {s : State} (hs : BlockForms s ∧ LinksAgree s) (c : Nat) :
    BlockForms (retire c s) ∧ LinksAgree (retire c s) := by
  obtain ⟨hblock, hlinks⟩ := hs
  cases hr : s.rec? c with
  | none => simpa [retire, hr] using ⟨hblock, hlinks⟩
  | some r =>
    obtain ⟨hlinks', q, hq, hql⟩ := linksAgree_endSearch hlinks hr false
    have hblock' : BlockForms (endSearch c false s) := blockForms_of_edits (edits_endSearch c s) hblock nofun
    have hunit : ∀ e ∈ (endSearch c false s).units, e.2.ctx ≠ c := fun e he => hlinks'.unit_ctx_ne hq he (by simp [hql])
    have hqueue : ∀ d ∈ (endSearch c false s).queue, d ≠ c := fun d hd => hlinks'.queued_ne hq (by simp [hql]) hd
    have hretire : retire c s = unuseProfile r.id.profile { endSearch c false s with
        free := (endSearch c false s).free ++ r.wins.segs
        index := tdel (position r.id.hw r.id.slot) (endSearch c false s).index
        ctxs := tdel c (endSearch c false s).ctxs } := by simp [retire, hr]
    have hlook : ∀ d, d ≠ c → (retire c s).rec? d = (endSearch c false s).rec? d := fun d hd => by
      rw [hretire]
      exact tget_tdel_other hd _
    rw [hretire] at hlook ⊢
    refine ⟨⟨rising_tdel hblock'.rises, hblock'.due, fun e he => hblock'.records e (mem_tdel.1 he).1, fun e he => ?_⟩,
      fun e he => ?_, fun d hd => ?_⟩
    · exact unitFits_congr (hblock'.units e he) rfl fun x hx => ⟨x, (hlook _ (hunit e he)).trans hx, rfl⟩
    · obtain ⟨x, hx, hxl⟩ := hlinks'.units e he
      exact ⟨x, (hlook _ (hunit e he)).trans hx, hxl⟩
    · obtain ⟨x, hx, hxl⟩ := hlinks'.queue d hd
      exact ⟨x, (hlook _ (hqueue d hd)).trans hx, hxl⟩

theorem blockForms_silenced {s : State} (hs : BlockForms s) (h : Nat) : BlockForms (silenced h s) := by
  unfold silenced
  split <;> exact ⟨hs.rises, hs.due, hs.records, hs.units⟩

theorem blockForms_configureCmd (e r m d u : Byte) {s : State} (hs : BlockForms s) : BlockForms (configureCmd e r m d u s).1 := by
  rcases configureCmd_cases e r m d u s with h | ⟨mode, n, _, _, h⟩ <;> rw [h]
  · exact hs
  · rw [← configured_frame e r m mode n s] at hs
    exact ⟨hs.rises, hs.due, hs.records, hs.units⟩

/-! ### Every step -/

theorem blockForms_linkEffect {i : Instr} {f : State → State × Reply} (h : linkEffect i = some f) {s : State}
    (hs : BlockForms s ∧ LinksAgree s) : BlockForms (f s).1 := by
  rcases editsOnly_or i with ⟨h1, h2, h3⟩ | ⟨hw, slot, rfl⟩ | ⟨hw, rfl⟩ | ⟨e, r, m, d, u, rfl⟩
  · exact blockForms_of_edits (edits_linkEffect h h1 h2 h3 s) hs.1 nofun
  · obtain rfl := Option.some.inj h
    rcases retireCmd_cases hw slot s with h | ⟨c, h⟩ <;> rw [h]
    · exact hs.1
    · exact (retire_keeps hs c).1
  · obtain rfl := Option.some.inj h
    unfold resetHighwayCmd
    split
    · exact hs.1
    · have hretired := foldl_keepsProp (P := fun x => BlockForms x ∧ LinksAgree x) (fun x c hx => retire_keeps hx c)
        (s.boundOn hw.toNat) hs
      exact blockForms_silenced hretired.1 _
  · exact Option.some.inj h ▸ blockForms_configureCmd e r m d u hs.1

theorem blockForms_command {i : Instr} {f : State → State × Reply} (h : linkEffect i = some f) (n : Nat) {s : State}
    (hs : BlockForms s ∧ LinksAgree s) : BlockForms (s.command n f) := by
  have hdone : BlockForms (f (settle s)).1 := blockForms_linkEffect h ⟨blockForms_settle hs.1, linksAgree_settle hs.2⟩
  exact blockForms_of_edits (b := false) (edits_rest rfl) hdone nofun

theorem blockForms_transaction (bytes : List Byte) {s : State} (hs : BlockForms s ∧ LinksAgree s) :
    BlockForms (transaction bytes s) := by
  rcases transaction_cases bytes s with ⟨r, l, h⟩ | ⟨i, f, _, hf, h⟩ <;> rw [h]
  · exact blockForms_of_edits (b := false) (edits_rest rfl) hs.1 nofun
  · exact blockForms_command hf _ hs

/-- A row of the end of a search: after the boundary it needs a unit at its end, which is there only before a frame is taken. -/
theorem blockForms_takeSearchEnd {ends : SearchUnit → Bool} {act : Nat → SearchUnit → Bool → State → State}
    (hact : ∀ u un b x, Edits b x (act u un b x)) (hends : ∀ un, ends un = true → ¬Unended un) (u : Nat) {s : State}
    (hs : BlockForms s) : BlockForms (takeSearchEnd ends act u s) := by
  have hsettled := blockForms_settle hs
  rcases takeSearchEnd_cases ends act u s with h | ⟨un, x, b, hu, hend, h⟩ <;> rw [h]
  · exact hs
  · refine blockForms_of_edits (hact ..) hsettled fun hb => ?_
    exact (hsettled.units _ (mem_of_tget hu)).1.resolve_right (hends un (hend hb))

theorem not_unended_of_complete {un : SearchUnit} (h : un.complete = true) : ¬Unended un := fun hu => by
  have : 64 ≤ un.qual := by simpa [SearchUnit.complete] using h
  exact absurd hu.1 (by omega)

theorem not_unended_of_failed {un : SearchUnit} (h : un.failed = true) : ¬Unended un := fun hu => by
  have : 512 ≤ un.blocks ∧ un.qual < 64 := by simpa [SearchUnit.failed] using h
  exact absurd hu.2 (by omega)

theorem blockForms_takeDue (e : DueEvent) {s : State} (hs : BlockForms s) : BlockForms (takeDue e s) := by
  by_cases he : e ∈ s.due
  · have hphase := hs.due.resolve_left (List.ne_nil_of_mem he)
    exact blockForms_of_edits (edits_of_moves (moves_takeDue e s)) hs fun _ => hphase
  · rwa [takeDue, if_neg he]

theorem blockForms_powerOn (l : List Instr) : BlockForms { State.reset with pending := l } :=
  ⟨rfl, .inl rfl, List.forall_mem_nil _, List.forall_mem_nil _⟩

theorem blockForms_exec (i : Instr) {s : State} (hs : BlockForms s ∧ LinksAgree s) (hunits : UnitsNumbered s.units) :
    ∃ t, exec i s = .next t ∧ BlockForms t := by
  cases hf : linkEffect i with
  | some f =>
    obtain ⟨n, hn⟩ := exec_of_linkEffect hf
    exact ⟨_, hn s, blockForms_command hf n hs⟩
  | none =>
    cases i <;> simp only [linkEffect, reduceCtorEq] at hf
    case powerOn => exact ⟨_, rfl, blockForms_powerOn _⟩
    case frame rIn sIn marks => exact ⟨_, takes_frame rIn sIn marks s, blockForms_frame hs.1 hunits rIn sIn marks⟩
    case lock h => exact ⟨_, rfl, blockForms_observed hs.1 (lock_edits h s)⟩
    case syncLost h => exact ⟨_, rfl, blockForms_observed hs.1 (syncLost_edits h s)⟩
    case syncBack h => exact ⟨_, rfl, blockForms_observed hs.1 (syncBack_edits h s)⟩
    case blockBoundary =>
      refine ⟨_, rfl, ?_⟩
      split
      · exact blockForms_boundary (blockForms_settle hs.1)
      · exact hs.1
    case searchCompletion =>
      exact ⟨_, rfl, blockForms_takeSearchEnd (fun _ _ _ _ => edits_completeSearch ..) (fun _ => not_unended_of_complete) _ hs.1⟩
    case searchFailure =>
      exact ⟨_, rfl, blockForms_takeSearchEnd (fun _ _ _ _ => edits_failSearch ..) (fun _ => not_unended_of_failed) _ hs.1⟩
    case read => exact ⟨_, rfl, blockForms_of_edits (b := false) (edits_rest rfl) hs.1 nofun⟩
    case commandMessage => exact ⟨_, rfl, blockForms_transaction _ hs⟩
    all_goals exact ⟨_, rfl, blockForms_takeDue _ hs.1⟩

/-- Settles O60: what `blockSafe` tests is kept by edits outside a boundary's events, by these before the block's first frame, and
by a frame, before which every search at its end has ended. -/
theorem blocksKept : Obligations.BlocksKept := by
  intro s t hblock hsearch h
  obtain ⟨hlinks, hunits⟩ := linksAgree_of_searchSafe hsearch
  obtain ⟨hrise, _⟩ := searchSafe_elim hsearch
  have hs : BlockForms s := blockForms_iff.2 ⟨hrise, hblock⟩
  unfold step at h
  split at h
  · exact Host.Outcome.next.inj h ▸ hblock
  · next i rest _ =>
    have hs' : BlockForms { s with pending := rest } := ⟨hs.rises, hs.due, hs.records, hs.units⟩
    have hlinks' : LinksAgree { s with pending := rest } := ⟨hlinks.units, hlinks.queue⟩
    obtain ⟨t', ht, hkept⟩ := blockForms_exec i ⟨hs', hlinks'⟩ hunits
    exact Host.Outcome.next.inj (ht.symm.trans h) ▸ (blockForms_iff.1 hkept).2

end Sys2Proof.FrameTiming


/-! PROOFS. The samples of a frame: what a FRAME moves and takes in, and that nothing else moves a sample in flight; O3, O4. -/

namespace Sys2Proof.FrameTiming

open Sys2Proof Sys2Proof.Machine Sys2Proof.TapSegments

/-! ### A FRAME -/

theorem slotAt_mapSlots {s : State} (f : Nat → Slot → Slot) {p : Nat} (hp : p < s.slots.length) :
    (s.mapSlots f).slotAt p = f p (s.slotAt p) := by
  simp only [State.slotAt, State.mapSlots, List.getD_eq_getElem?_getD, mapFrom_getElem?, Nat.zero_add, List.getElem?_eq_getElem hp,
    Option.map_some, Option.getD_some]

theorem allObserved_slots (s : State) : (allObserved s).slots = s.slots := by
  refine foldl_keeps (fun t : State => t.slots) _ (fun x h => ?_) _ _
  rcases makeObs_edits h x with he | ⟨y, _, he⟩
  · rw [he]
  · exact (sameFixed_of_edits he).slots

theorem boundaryTaken_slots (s : State) : (boundaryTaken s).slots = s.slots := by
  unfold boundaryTaken
  split
  · exact (sameFixed_of_edits (edits_blockBoundary _)).slots.trans (settle_slots s)
  · rfl

theorem closeFrame_slots (s : State) : (closeFrame s).slots = s.slots := by
  rw [(sameFixed_of_edits (edits_closeFrame s)).slots, boundaryTaken_slots, allObserved_slots]

theorem openFrame_slots (s : State) : (openFrame s).slots = s.slots := rfl

theorem atFrame_slots (s : State) : (atFrame s).slots = s.slots := by rw [atFrame, openFrame_slots, closeFrame_slots]

section
variable (rIn sIn : List Sample) (marks : List SyncMarks) (a : State)

theorem frameTaken_slots_length : (frameTaken rIn sIn marks a).slots.length = a.slots.length :=
  (mapFrom_length ..).trans (mapFrom_length ..)

/-- A slot position after a frame: moved on, and beside it what enters (R48, R50). -/
theorem slotAt_frameTaken {p : Nat} (hp : p < a.slots.length) :
    (frameTaken rIn sIn marks a).slotAt p = { shiftSlot (a.slotAt p) with
      r1 := ((shifted a).entering rIn sIn p).1, s1 := ((shifted a).entering rIn sIn p).2 } := by
  have hshift : p < (shifted a).slots.length := hp.trans_eq (mapFrom_length ..).symm
  refine (slotAt_mapSlots (s := shifted a) (fun p sl => { sl with
    r1 := ((shifted a).entering rIn sIn p).1, s1 := ((shifted a).entering rIn sIn p).2 }) hshift).trans ?_
  rw [shifted, slotAt_mapSlots _ hp]

end

/-- A history after a sample has entered it: that sample at delay 0, every other one delay further back (R50). -/
theorem getD_pushHist_zero (x : Sample) (h : List Sample) : (pushHist x h).getD 0 0 = x := by
  rw [pushHist, getD_trimZeros]
  rfl

theorem getD_pushHist_succ (x : Sample) (h : List Sample) {k : Nat} (hk : k + 1 < historyDepth) :
    (pushHist x h).getD (k + 1) 0 = h.getD k 0 := by
  rw [pushHist, getD_trimZeros, List.getD_eq_getElem?_getD, List.getElem?_take_of_lt hk, List.getElem?_cons_succ,
    ← List.getD_eq_getElem?_getD]

/-! ### What the entering samples become (R48) -/

section
variable {a : State} {p : Nat} (rIn sIn : List Sample)

theorem entering_off (h : a.enabled (p / nSlots) = false) :
    (shifted a).entering rIn sIn p = (rIn.getD p 0, sIn.getD p 0) := by
  have h : (shifted a).enabled (p / nSlots) = false := h
  simp [State.entering, h]

theorem entering_unlocked (hen : a.enabled (p / nSlots) = true) (h : a.locked (p / nSlots) = false) :
    (shifted a).entering rIn sIn p = (0, 0) := by
  have hen : (shifted a).enabled (p / nSlots) = true := hen
  have h : (shifted a).locked (p / nSlots) = false := h
  simp [State.entering, hen, h]

theorem enabled_of_locked {h : Nat} (hl : a.locked h = true) : a.enabled h = true := by
  unfold State.locked at hl
  unfold State.enabled
  cases hy : tget h a.sync <;> simp_all

theorem entering_locked (h : a.locked (p / nSlots) = true) :
    (shifted a).entering rIn sIn p = match a.treating p with
      | none => (rIn.getD p 0, sIn.getD p 0)
      | some r => (workedFrame (a.profileOf r) ((shifted a).histOf r) (rIn.getD p 0) (sIn.getD p 0) r).2 := by
  have hen : (shifted a).enabled (p / nSlots) = true := enabled_of_locked h
  have h : (shifted a).locked (p / nSlots) = true := h
  have htreating : (shifted a).treating p = a.treating p := rfl
  simp only [State.entering, hen, h, htreating, Bool.not_true, Bool.false_eq_true, if_false, if_true]
  rfl

theorem treating_eq_none (h : ∀ c r, tget p a.index = some c → a.rec? c = some r → r.blk.started = false) :
    a.treating p = none := by
  unfold State.treating
  cases hc : tget p a.index with
  | none => rfl
  | some c =>
    cases hr : a.rec? c with
    | none => simp [hr]
    | some r => simp [hr, h c r hc hr]

theorem treating_eq_some {c : Nat} {r : Record} (hc : tget p a.index = some c) (hr : a.rec? c = some r)
    (hst : r.blk.started = true) : a.treating p = some r := by
  simp [State.treating, hc, hr, hst]

end

/-- The R_out sample of a worked frame (R157). -/
theorem workedFrame_rOut (p : Profile) (h : List Sample) (x y : Sample) (r : Record) :
    (workedFrame p h x y r).2.1 = sat16 ((x.toInt * clampNat r.lev.rx.gain p.rx.gmin p.rx.gmax + 2048) / 4096) := rfl

/-- Settles O3. -/
theorem frameMovesSamples : Obligations.FrameMovesSamples := by
  intro rIn sIn marks s
  have hslots := atFrame_slots s
  refine ⟨_, takes_frame rIn sIn marks s, ?_⟩
  generalize atFrame s = w at hslots
  refine ⟨by rw [frameTaken_slots_length, hslots], fun p hp => ?_⟩
  have hslot := slotAt_congr hslots p
  dsimp only
  rw [slotAt_frameTaken rIn sIn marks w (hslots ▸ hp), hslot]
  refine ⟨rfl, rfl, rfl, rfl, getD_pushHist_zero .., fun k hk => getD_pushHist_succ _ _ (Nat.lt_trans hk (by decide)),
    fun h => ?_, fun hen h => ?_, fun h hfree => ?_, fun h c r hc hr hst => ?_⟩
  · rw [entering_off rIn sIn h]
    exact ⟨rfl, rfl⟩
  · rw [entering_unlocked rIn sIn hen h]
    exact ⟨rfl, rfl⟩
  · rw [entering_locked rIn sIn h, treating_eq_none hfree]
    exact ⟨rfl, rfl⟩
  · rw [entering_locked rIn sIn h, treating_eq_some hc hr hst]
    exact workedFrame_rOut (w.profileOf r) ((shifted w).histOf r) (rIn.getD p 0) (sIn.getD p 0) r

/-! ### Every other step -/

/-- From `s` to `t` no pin and no sample in flight has moved (R48). -/
def FlightKept (s t : State) : Prop :=
  t.slots.length = s.slots.length ∧ ∀ p, { t.slotAt p with hist := (s.slotAt p).hist } = s.slotAt p

theorem flightKept_of_slots {s t : State} (h : t.slots = s.slots) : FlightKept s t :=
  ⟨congrArg List.length h, fun p => by rw [slotAt_congr h]⟩

theorem flightKept_mapSlots {s t : State} {f : Nat → Slot → Slot} (h : t.slots = (s.mapSlots f).slots)
    (hf : ∀ p sl, { f p sl with hist := sl.hist } = sl) : FlightKept s t := by
  refine ⟨h ▸ mapFrom_length .., fun p => ?_⟩
  rw [slotAt_congr h]
  by_cases hp : p < s.slots.length
  · rw [slotAt_mapSlots f hp]
    exact hf p _
  · have hnone : ∀ u : State, u.slots.length = s.slots.length → u.slotAt p = slotPowerOn := fun u hu => by
      rw [State.slotAt, List.getD_eq_getElem?_getD, List.getElem?_eq_none (by omega)]
      rfl
    rw [hnone s rfl, hnone _ (mapFrom_length ..)]

theorem retires_slots (l : List Nat) (s : State) : (l.foldl (fun t c => retire c t) s).slots = s.slots :=
  foldl_keeps (fun t : State => t.slots) _ (by simp) _ _

theorem resetHighwayCmd_flight (hw : Byte) (s : State) : FlightKept s (resetHighwayCmd hw s).1 := by
  unfold resetHighwayCmd
  split
  · exact flightKept_of_slots rfl
  · rw [resetHighway_eq]
    have hretired := retires_slots (s.boundOn hw.toNat) s
    generalize (s.boundOn hw.toNat).foldl (fun t c => retire c t) s = u at hretired
    refine flightKept_mapSlots (f := fun p sl => if p / nSlots = hw.toNat then { sl with hist := [] } else sl) ?_ fun p sl => ?_
    · simp only [State.mapSlots, ← hretired]
      unfold silenced
      split <;> rfl
    · split <;> rfl

theorem linkEffect_slots {i : Instr} {f : State → State × Reply} (h : linkEffect i = some f) (hi : ∀ hw, i ≠ .resetHighway hw)
    (s : State) : (f s).1.slots = s.slots := by
  rcases editsOnly_or i with ⟨h1, h2, h3⟩ | ⟨hw, slot, rfl⟩ | ⟨hw, rfl⟩ | ⟨e, r, m, d, u, rfl⟩
  · exact (sameFixed_of_edits (edits_linkEffect h h1 h2 h3 s)).slots
  · obtain rfl := Option.some.inj h
    rcases retireCmd_cases hw slot s with h | ⟨c, h⟩ <;> rw [h]
    exact retire_slots ..
  · exact absurd rfl (hi hw)
  · obtain rfl := Option.some.inj h
    rcases configureCmd_cases e r m d u s with h | ⟨mode, n, _, _, h⟩ <;> rw [h]
    exact (congrArg State.slots (configured_frame e r m mode n s) :)

theorem command_slots {i : Instr} {f : State → State × Reply} (h : linkEffect i = some f) (hi : ∀ hw, i ≠ .resetHighway hw)
    (n : Nat) (s : State) : (s.command n f).slots = s.slots :=
  (linkEffect_slots h hi (settle s)).trans (settle_slots s)

theorem command_flight {i : Instr} {f : State → State × Reply} (h : linkEffect i = some f) (n : Nat) (s : State) :
    FlightKept s (s.command n f) := by
  by_cases hi : ∀ hw, i ≠ .resetHighway hw
  · exact flightKept_of_slots (command_slots h hi n s)
  · simp only [not_forall, not_not] at hi
    obtain ⟨hw, rfl⟩ := hi
    obtain rfl := Option.some.inj h
    have hslots : ∀ p, (settle s).slotAt p = s.slotAt p := slotAt_congr (settle_slots s)
    obtain ⟨hlen, hkept⟩ := resetHighwayCmd_flight hw (settle s)
    refine ⟨hlen.trans (congrArg _ (settle_slots s)), fun p => ?_⟩
    have := hkept p
    rwa [hslots] at this

theorem takeSearchEnd_slots (ends : SearchUnit → Bool) {act : Nat → SearchUnit → Bool → State → State}
    (hact : ∀ u un b x, Edits b x (act u un b x)) (u : Nat) (s : State) : (takeSearchEnd ends act u s).slots = s.slots := by
  have hdone : ∀ un b, (act u un b (settle s)).slots = s.slots := fun un b =>
    (sameFixed_of_edits (hact ..)).slots.trans (settle_slots s)
  rcases takeSearchEnd_cases ends act u s with h | ⟨_, x, b, _, _, h⟩ <;> rw [h]
  exact hdone ..

theorem observed_slots {s t : State} {h : Nat}
    (ht : t = s ∨ ∃ y, tget h s.sync = some y ∧ Edits false (countedHighway h y s) t) : t.slots = s.slots := by
  rcases ht with rfl | ⟨y, _, he⟩
  · rfl
  · exact (sameFixed_of_edits he).slots

/-- A step that is no command, no message, no FRAME and no POWER_ON leaves the slot positions alone. -/
theorem takes_slots {i : Instr} {s t : State} (hframe : ∀ a b c, i ≠ .frame a b c) (hpower : i ≠ .powerOn)
    (hmessage : ∀ bytes bits, i ≠ .commandMessage bytes bits) (hnone : linkEffect i = none) (h : takes i s t) :
    t.slots = s.slots := by
  cases i <;> simp only [linkEffect, reduceCtorEq] at hnone
  case powerOn => exact absurd rfl hpower
  case frame rIn sIn marks => exact absurd rfl (hframe rIn sIn marks)
  case commandMessage bytes bits => exact absurd rfl (hmessage bytes bits)
  all_goals rw [← Host.Outcome.next.inj h]
  case lock k => exact observed_slots (lock_edits k s)
  case syncLost k => exact observed_slots (syncLost_edits k s)
  case syncBack k => exact observed_slots (syncBack_edits k s)
  case blockBoundary => exact boundaryTaken_slots s
  case searchCompletion => exact takeSearchEnd_slots _ (fun _ _ _ _ => edits_completeSearch ..) _ s
  case searchFailure => exact takeSearchEnd_slots _ (fun _ _ _ _ => edits_failSearch ..) _ s
  case read => rfl
  all_goals exact (sameFixed_of_edits (edits_of_moves (moves_takeDue _ s))).slots

/-- Settles O4: only RESET HIGHWAY, as its row or as a message, is more than an edit of the slot positions. -/
theorem inFlightSamplesKept : Obligations.InFlightSamplesKept := by
  intro i s t hframe hpower h
  suffices H : FlightKept s t ∧ ((∀ hw, i ≠ .resetHighway hw) →
      (∀ hw bytes bits, i = .commandMessage bytes bits → decodeMessage bytes ≠ .ok (.resetHighway hw)) → t.slots = s.slots) from
    ⟨H.1.1, H.1.2, H.2⟩
  cases hf : linkEffect i with
  | some f =>
    obtain ⟨n, hn⟩ := exec_of_linkEffect hf
    obtain rfl := Host.Outcome.next.inj ((hn s).symm.trans h)
    exact ⟨command_flight hf n s, fun hi _ => command_slots hf hi n s⟩
  | none =>
    by_cases hmessage : ∀ bytes bits, i ≠ .commandMessage bytes bits
    · have := takes_slots hframe hpower hmessage hf h
      exact ⟨flightKept_of_slots this, fun _ _ => this⟩
    · simp only [not_forall, not_not] at hmessage
      obtain ⟨bytes, bits, rfl⟩ := hmessage
      obtain rfl : transaction bytes s = t := Host.Outcome.next.inj h
      rcases transaction_cases bytes s with ⟨r, l, ht⟩ | ⟨j, f, hj, hf, ht⟩ <;> rw [ht]
      · exact ⟨flightKept_of_slots rfl, fun _ _ => rfl⟩
      · refine ⟨command_flight hf _ s, fun _ hreset => command_slots hf (fun hw hhw => ?_) _ s⟩
        exact hreset hw bytes bits rfl (hhw ▸ hj)

end Sys2Proof.FrameTiming


/-! PROOFS. The observations of a frame and the transitions of a highway's sync state (R52 to R54); O10, O11. -/

namespace Sys2Proof.FrameTiming

open Sys2Proof Sys2Proof.Machine Sys2Proof.TapSegments

/-! ### Raising a notice of a highway -/

section
variable (k : HwKind) (h : Nat) (s : State)

/-- The routing of a highway kind in force (R185). -/
def hwRoute : Route := match k with
  | .syncLost => s.inForce.routeLost
  | .syncBack => s.inForce.routeBack

/-- Raising a notice of a highway: nothing for a kind pending; otherwise the kind enters the set and pulses are owed. -/
theorem raiseHw_cases :
    ((s.hwPending h).getLsbD k.bit = true ∧ raiseHw k h s = s) ∨
    ((s.hwPending h).getLsbD k.bit = false ∧ raiseHw k h s =
      { s with hwKinds := tset h (s.hwPending h ||| (1#2 <<< k.bit)) s.hwKinds }.owe (hwRoute k s)) := by
  unfold raiseHw
  cases hp : (s.hwPending h).getLsbD k.bit with
  | true => exact .inl ⟨rfl, rfl⟩
  | false => exact .inr ⟨rfl, by cases k <;> rfl⟩

theorem hwPending_raiseHw (j : Nat) :
    (raiseHw k h s).hwPending j = if j = h then s.hwPending h ||| (1#2 <<< k.bit) else s.hwPending j := by
  have hset : ∀ w : BitVec 2, w.getLsbD k.bit = true → w ||| (1#2 <<< k.bit) = w := by cases k <;> decide
  rcases raiseHw_cases k h s with ⟨hp, he⟩ | ⟨_, he⟩ <;> rw [he]
  · split
    · next hj => rw [hset _ hp, hj]
    · rfl
  · split
    · next hj => simp [State.hwPending, hj]
    · next hj => simp [State.hwPending, tget_tset_other hj]

/-- Raising a notice of a highway changes the kinds and the lines alone. -/
theorem raiseHw_frame : { raiseHw k h s with hwKinds := s.hwKinds, lineA := s.lineA, lineB := s.lineB } = s := by
  apply state_ext <;> simp

end

/-- The pulses that a kind newly set owes (R187). -/
theorem pulses_owe (s : State) (r : Route) : pulses true r s (s.owe r) := by
  have hline : ∀ (m : LineMode) (hit : Bool) (l : AlertLine) (p : Prop) [Decidable p], (hit = true ↔ p) →
      oweLine m hit l = if true = true ∧ m = .pulsed ∧ p then { l with owed := min 255 (l.owed + 1) } else l := by
    intro m hit l p _ hp
    cases m with
    | latched => simp [oweLine]
    | pulsed => simp [oweLine, hp]
  refine ⟨hline _ _ _ _ ?_, hline _ _ _ _ ?_⟩ <;> cases r <;> simp [routesToA, routesToB]

theorem pulses_not_fresh (s : State) (r : Route) : pulses false r s s := by simp [pulses]

theorem pulses_raiseHw (k : HwKind) (h : Nat) (s : State) :
    pulses (!(s.hwPending h).getLsbD k.bit) (hwRoute k s) s (raiseHw k h s) := by
  rcases raiseHw_cases k h s with ⟨hp, he⟩ | ⟨hp, he⟩ <;> rw [he, hp]
  · exact pulses_not_fresh s _
  · exact pulses_owe _ _

/-! ### LOCK, SYNC_LOST, SYNC_BACK -/

theorem takeSync_of {brings : Highway → Bool} {act : Nat → Highway → State → State} {h : Nat} {s : State} {y : Highway}
    (hy : tget h s.sync = some y) (hb : brings y = true) : takeSync brings act h s = act h y s := by
  simp [takeSync, hy, hb]

theorem observed_of_locks {y : Highway} (hy : y.locks = true) :
    observed y = { sync := .locked, good := 8, bad := 0, obs := none } := by
  obtain ⟨_, hobs, hgood⟩ := obs_of_locks hy
  simp [observed, hobs, countObs, hy, show min 8 (y.good + 1) = 8 by omega]

theorem observed_of_loses {y : Highway} (hy : y.loses = true) :
    observed y = { sync := .lost, good := 0, bad := 2, obs := none } := by
  obtain ⟨hsync, hobs, hbad⟩ := obs_of_loses hy
  simp [observed, hobs, countObs, hy, Highway.locks, hsync, show min 2 (y.bad + 1) = 2 by omega]

theorem observed_of_returns {y : Highway} (hy : y.returns = true) :
    observed y = { sync := .locked, good := 8, bad := 0, obs := none } := by
  obtain ⟨hsync, hobs, hgood⟩ := obs_of_returns hy
  simp [observed, hobs, countObs, hy, Highway.locks, Highway.loses, hsync, show min 8 (y.good + 1) = 8 by omega]

/-- A transition that raises a notice: the highway's counts and state, the kind in its set, its pulses, and nothing else. -/
theorem raiseHw_countedHighway (k : HwKind) (h : Nat) (y : Highway) (s : State) :
    let t := raiseHw k h (countedHighway h y s)
    t.sync = tset h (observed y) s.sync ∧ t.hwPending h = (s.hwPending h ||| (1#2 <<< k.bit)) ∧
      (∀ j, j ≠ h → t.hwPending j = s.hwPending j) ∧ pulses (!(s.hwPending h).getLsbD k.bit) (hwRoute k s) s t ∧
      { t with sync := s.sync, hwKinds := s.hwKinds, lineA := s.lineA, lineB := s.lineB } = s := by
  refine ⟨by simp [countedHighway], ?_, fun j hj => ?_, pulses_raiseHw k h (countedHighway h y s), ?_⟩
  · rw [hwPending_raiseHw, if_pos rfl]
    rfl
  · rw [hwPending_raiseHw, if_neg hj]
    rfl
  · apply state_ext <;> simp [countedHighway]

/-- Settles O11. -/
theorem syncTransitions : Obligations.SyncTransitions := by
  intro s h y hy
  refine ⟨fun hsync hobs hgood => ?_, fun hsync hobs hbad => ?_, fun hsync hobs hgood => ?_⟩
  · have hb : y.locks = true := by simp [Highway.locks, hsync, hobs, hgood]
    refine congrArg Host.Outcome.next ((takeSync_of hy hb).trans ?_)
    rw [lockHighway_eq h s hb, countedHighway, observed_of_locks hb]
    rfl
  · have hb : y.loses = true := by simp [Highway.loses, hsync, hobs, hbad]
    refine ⟨_, congrArg Host.Outcome.next ((takeSync_of hy hb).trans (loseHighway_eq h s hb)), ?_⟩
    rw [← observed_of_loses hb]
    exact raiseHw_countedHighway .syncLost h y s
  · have hb : y.returns = true := by simp [Highway.returns, hsync, hobs, hgood]
    refine ⟨_, congrArg Host.Outcome.next ((takeSync_of hy hb).trans (returnHighway_eq h s hb)), ?_⟩
    rw [← observed_of_returns hb]
    exact raiseHw_countedHighway .syncBack h y s

/-! ### The observations that a FRAME makes -/

theorem tget_makeObs (s : State) (h k : Nat) :
    tget k (makeObs s h).sync = if k = h then (tget h s.sync).map observed else tget k s.sync := by
  rcases makeObs_cases h s with ⟨he, hobs⟩ | ⟨y, hy, hcase⟩
  · rw [he, hobs]
    split
    · next hk => rw [hk]
    · rfl
  · have hsync : (makeObs s h).sync = tset h (observed y) s.sync := by
      rcases hcase with ⟨_, he⟩ | ⟨_, he⟩ | ⟨_, _, he⟩ <;> simp [he, countedHighway]
    rw [hsync]
    split
    · next hk => rw [hk, tget_tset_same, hy]; rfl
    · next hk => rw [tget_tset_other hk]

theorem tget_observations (n : Nat) (s : State) (h : Nat) :
    tget h ((List.range n).foldl makeObs s).sync = if h < n then (tget h s.sync).map observed else tget h s.sync := by
  induction n with
  | zero => rfl
  | succ n ih =>
    rw [List.range_succ, List.foldl_append, List.foldl_cons, List.foldl_nil, tget_makeObs]
    by_cases hn : h = n
    · subst hn
      rw [if_pos rfl, ih, if_neg (Nat.lt_irrefl h), if_pos (Nat.lt_succ_self h)]
    · rw [if_neg hn, ih]
      congr 1
      exact propext (by omega)

theorem boundaryTaken_sync (s : State) : (boundaryTaken s).sync = s.sync := by
  unfold boundaryTaken
  split
  · exact (sameFixed_of_edits (edits_blockBoundary _)).sync.trans (settle_sync s)
  · rfl

theorem closeFrame_sync (s : State) : (closeFrame s).sync = (allObserved s).sync :=
  (sameFixed_of_edits (edits_closeFrame s)).sync.trans (boundaryTaken_sync _)

theorem openFrame_sync (s : State) : (openFrame s).sync = s.sync := rfl

theorem tget_frame_sync (rIn sIn : List Sample) (marks : List SyncMarks) (s : State) {h : Nat} (hh : h < 8) :
    tget h (frameTaken rIn sIn marks (atFrame s)).sync = ((tget h s.sync).map observed).map (seeing marks h) := by
  rw [tget_frameTaken_sync, atFrame, openFrame_sync, closeFrame_sync, allObserved, tget_observations, if_pos hh]

/-- The tables of R52 and R53: what an observation makes of the counts and of the state. -/
theorem observed_of_obs {y : Highway} {g : Bool} (hobs : y.obs = some g) :
    let good := if g then min 8 (y.good + 1) else 0
    let bad := if g then 0 else min 2 (y.bad + 1)
    observed y = { good := good, bad := bad, obs := none, sync := if (y.sync = .seeking ∨ y.sync = .lost) ∧ good = 8 then .locked
      else if y.sync = .locked ∧ bad = 2 then .lost else y.sync } := by
  have hgood : min 8 (y.good + 1) = 8 ↔ 7 ≤ y.good := by omega
  have hbad : min 2 (y.bad + 1) = 2 ↔ 1 ≤ y.bad := by omega
  cases g <;> cases hs : y.sync <;>
    simp [observed, hobs, hs, countObs, Highway.locks, Highway.loses, Highway.returns, hgood, hbad]

/-- Settles O10. -/
theorem syncObservations : Obligations.SyncObservations := by
  intro rIn sIn marks s t h hh ht
  obtain rfl := Host.Outcome.next.inj ((takes_frame rIn sIn marks s).symm.trans ht)
  rw [tget_frame_sync rIn sIn marks s hh]
  refine ⟨fun hy => by rw [hy]; rfl, fun y hy => ⟨fun hobs => ?_, fun g hobs => ?_⟩⟩
  · rw [hy, Option.map_some, Option.map_some, observed, hobs]
    rfl
  · rw [hy, Option.map_some, Option.map_some, observed_of_obs hobs]
    rfl

end Sys2Proof.FrameTiming


/-! PROOFS. The block boundary: the count of blocks, the gate, what a boundary leaves alone, the pulses of WARNED, and the stamp
counter; O12, O16, O19. -/

namespace Sys2Proof.FrameTiming

open Sys2Proof Sys2Proof.Machine Sys2Proof.TapSegments

/-! ### Notices of one kind raised for several contexts -/

/-- A kind raised for each of several contexts. -/
def raises (k : Kind) (l : List Nat) (s : State) : State := l.foldl (fun t c => raise k c t) s

/-- Raising a notice changes records and lines alone. -/
theorem raise_frame (k : Kind) (c : Nat) (s : State) (m : List (Nat × Record)) (a b : AlertLine) :
    { raise k c s with ctxs := m, lineA := a, lineB := b } = { s with ctxs := m, lineA := a, lineB := b } := by
  rcases raise_cases k c s with ⟨_, h⟩ | ⟨r, _, ⟨_, h⟩ | ⟨_, h⟩⟩
  · rw [h]
  · rw [h]
  · rw [h]; rfl

theorem raises_frame (k : Kind) (l : List Nat) (s : State) (m : List (Nat × Record)) (a b : AlertLine) :
    { raises k l s with ctxs := m, lineA := a, lineB := b } = { s with ctxs := m, lineA := a, lineB := b } :=
  foldl_keeps (fun t : State => { t with ctxs := m, lineA := a, lineB := b }) _ (fun t c => raise_frame k c t m a b) l s

/-- Notices raised change the kinds of a record's notices alone. -/
theorem rec?_raises (k : Kind) (l : List Nat) (s : State) (c : Nat) :
    ∃ kinds : BitVec 9 → BitVec 9, (raises k l s).rec? c =
      (s.rec? c).map fun r => { r with notes := { r.notes with kinds := kinds r.notes.kinds } } := by
  induction l generalizing s with
  | nil => exact ⟨id, Option.map_id'.symm⟩
  | cons d l ih =>
    obtain ⟨kinds, h⟩ := ih (raise k d s)
    rw [raises, List.foldl_cons, ← raises, h, rec?_raise]
    split
    · next hc =>
      subst hc
      refine ⟨fun w => kinds (if hasKind w k then w else addKind w k), ?_⟩
      cases s.rec? c <;> rfl
    · exact ⟨kinds, rfl⟩

/-- The lines after `n` pulses more are owed on one of a mode (R187). -/
def owedBy (mode : LineMode) (n : Nat) (l : AlertLine) : AlertLine :=
  if 0 < n ∧ mode = .pulsed then { l with owed := min 255 (l.owed + n) } else l

theorem owedBy_oweLine (mode : LineMode) (hit : Bool) (n : Nat) (l : AlertLine) :
    owedBy mode n (oweLine mode hit l) = owedBy mode (n + hit.toNat) l := by
  cases mode with
  | latched => simp [owedBy, oweLine]
  | pulsed =>
    cases hit with
    | false => simp [owedBy, oweLine]
    | true =>
      cases n with
      | zero => simp [owedBy, oweLine]
      | succ n => simp [owedBy, oweLine]; omega

/-- Raised for context `c`, the kind is newly set and goes to a line that `hit` names. -/
def owes (k : Kind) (hit : Route → Bool) (s : State) (c : Nat) : Bool :=
  (s.rec? c).any fun r => !hasKind r.notes.kinds k && hit (routeOf r.notes.routing k)

theorem raise_lines (k : Kind) (c : Nat) (s : State) :
    (raise k c s).lineA = oweLine s.inForce.modeA (owes k (routesToA s.inForce.merge) s c) s.lineA ∧
    (raise k c s).lineB = oweLine s.inForce.modeB (owes k (routesToB s.inForce.merge) s c) s.lineB := by
  have hfalse : ∀ m l, oweLine m false l = l := fun m l => by cases m <;> rfl
  rcases raise_cases k c s with ⟨hr, h⟩ | ⟨r, hr, ⟨hk, h⟩ | ⟨hk, h⟩⟩
  · simp [h, owes, hr, hfalse]
  · simp [h, owes, hr, hk, hfalse]
  · simp [h, owes, hr, hk, State.owe]

theorem owes_raise_other (k : Kind) (hit : Route → Bool) {c d : Nat} (hd : d ≠ c) (s : State) :
    owes k hit (raise k c s) d = owes k hit s d := by rw [owes, rec?_raise, if_neg hd, owes]

/-- The pulses of a kind raised for several contexts: one for each in which it is newly set (R180, R187). -/
theorem raises_lines (k : Kind) {l : List Nat} (hl : l.Nodup) (s : State) :
    (raises k l s).lineA = owedBy s.inForce.modeA (l.countP (owes k (routesToA s.inForce.merge) s)) s.lineA ∧
    (raises k l s).lineB = owedBy s.inForce.modeB (l.countP (owes k (routesToB s.inForce.merge) s)) s.lineB := by
  induction l generalizing s with
  | nil => simp [raises, owedBy]
  | cons c l ih =>
    obtain ⟨hc, hl⟩ := List.nodup_cons.1 hl
    have hrest : ∀ hit, l.countP (owes k hit (raise k c s)) = l.countP (owes k hit s) := fun hit =>
      List.countP_congr fun d hd => by rw [owes_raise_other k hit (ne_of_mem_of_not_mem hd hc)]
    have hcount : ∀ hit, (c :: l).countP (owes k hit s) = l.countP (owes k hit s) + (owes k hit s c).toNat := fun hit => by
      rw [List.countP_cons]
      cases owes k hit s c <;> rfl
    obtain ⟨hA, hB⟩ := ih hl (raise k c s)
    obtain ⟨hA', hB'⟩ := raise_lines k c s
    rw [raises, List.foldl_cons, ← raises, hA, hB, hA', hB', raise_inForce, hrest, hrest, owedBy_oweLine, owedBy_oweLine, hcount,
      hcount]
    exact ⟨rfl, rfl⟩

/-! ### The records and the due events of a boundary -/

theorem blockBoundary_eq_raises (s : State) : blockBoundary s = raises .warned s.warnedNow (measured s) := rfl

/-- A boundary changes the fields of `measured`, the kinds that it raises and the lines, and no other. -/
theorem blockBoundary_frame (s : State) (m : List (Nat × Record)) (a b : AlertLine) :
    { blockBoundary s with ctxs := m, lineA := a, lineB := b } = { measured s with ctxs := m, lineA := a, lineB := b } :=
  raises_frame ..

theorem recordEnd_notes (p : Profile) (h : List Sample) (r : Record) : (recordEnd p h r).notes = r.notes := by
  unfold recordEnd
  split
  · rfl
  · split <;> rfl

theorem rec?_blockBoundary_none {s : State} {c : Nat} (h : s.rec? c = none) : (blockBoundary s).rec? c = none := by
  obtain ⟨kinds, hk⟩ := rec?_raises .warned s.warnedNow (measured s) c
  rw [blockBoundary_eq_raises, hk, rec?_measured, h]
  rfl

theorem rec?_blockBoundary {s : State} {c : Nat} {r : Record} (h : s.rec? c = some r) :
    ∃ w : BitVec 9, (blockBoundary s).rec? c =
      some { s.boundaryRecord s.selection c r with notes := { r.notes with kinds := w } } := by
  obtain ⟨kinds, hk⟩ := rec?_raises .warned s.warnedNow (measured s) c
  have hnotes : (s.boundaryRecord s.selection c r).notes = r.notes := recordEnd_notes ..
  refine ⟨kinds r.notes.kinds, ?_⟩
  rw [blockBoundary_eq_raises, hk, rec?_measured, h, Option.map_some, Option.map_some, hnotes]

/-- The record of a worked block after the boundary (R70). -/
theorem boundaryRecord_of_worked {s : State} {r : Record} (hst : r.blk.started = true) (hw : r.blk.worked = true)
    (sel : List Nat) (c : Nat) :
    s.boundaryRecord sel c r = { workedEnd (s.profileOf r) (viewBlock (s.profileOf r) (s.histOf r) r) r with
      skip := skipAfter (eligible (s.gateNow r) r) (decide (c ∈ sel)) r.skip } := by
  rw [State.boundaryRecord, recordEnd, if_pos (by simp [workedBlock, hst, hw])]

theorem blockBoundary_blockCounter (s : State) : (blockBoundary s).blockCounter = s.blockCounter + 1 :=
  foldl_keeps (fun t : State => t.blockCounter) _ (by intro t c; exact raise_blockCounter ..) _ _

theorem blockBoundary_due (s : State) : (blockBoundary s).due =
    s.ctxs.flatMap (fun e => dueEvents (s.profileOf e.2) (s.histOf e.2) e.1 e.2) ++
      if s.stampDue then [DueEvent.stampAdvance] else [] :=
  foldl_keeps (fun t : State => t.due) _ (by simp) _ _

/-! ### The gate (R96 to R100) -/

theorem energy_eq (l : List Sample) : energy l = (l.map fun x => x.toInt.natAbs ^ 2).sum := by
  simp only [energy, Nat.pow_two]
  rfl

theorem gateOf_eq (far near : Nat) : gateOf far near =
    if 0 < far ∧ near = 0 then .far else if far = 0 ∧ 0 < near then .near else if 0 < far ∧ 0 < near then .double else .idle := by
  cases far <;> cases near <;> simp [gateOf]

/-- Settles O12. -/
theorem gateDecision : Obligations.GateDecision := by
  intro s hphase _
  refine ⟨_, takes_blockBoundary hphase, blockBoundary_phase _, ?_, ?_⟩
  · rw [blockBoundary_blockCounter, settle_blockCounter]
  · intro c r hr hst hw f ef smax xmax far near
    obtain ⟨w, hq⟩ := rec?_blockBoundary hr
    rw [boundaryRecord_of_worked hst hw] at hq
    have hfar : hangover 8 r.gate.far (farTest f r) = far := by
      have : farTest f r = decide (8 * f.tFar ^ 2 ≤ ef) := by rw [farTest, energy_eq, Nat.pow_two]
      simp [hangover, this, far]
    have hnear : hangover 30 r.gate.near (nearTest f ((settle s).histOf r) r) = near := by
      have : nearTest f ((settle s).histOf r) r = (decide (xmax ≤ 2 * smax) && decide (f.tNear ≤ smax)) := rfl
      simp [hangover, this, near]
    have hgate : (decideGate f ((settle s).histOf r) r) = { state := gateOf far near, far := far, near := near } := by
      rw [decideGate, hfar, hnear]
    refine ⟨_, hq, ?_⟩
    show (decideGate f ((settle s).histOf r) r).far = far ∧ (decideGate f ((settle s).histOf r) r).near = near ∧
      (decideGate f ((settle s).histOf r) r).state = _
    rw [hgate, gateOf_eq]
    exact ⟨rfl, rfl, rfl⟩

/-! ### What a boundary leaves alone -/

theorem windowEnd_mem_dueEvents {p : Profile} {h : List Sample} {c d : Nat} {r : Record} :
    DueEvent.windowEnd c ∈ dueEvents p h d r ↔ c = d ∧ workedBlock r = true ∧ 9 ≤ r.tone.blocks := by
  unfold dueEvents
  by_cases hw : workedBlock r = true
  · simp [hw, windowFull, and_comm]
  · simp [hw]

theorem windowEnd_mem_due {s : State} (hs : rising s.ctxs = true) {c : Nat} {r : Record} (hr : s.rec? c = some r)
    (hw : workedBlock r = true) : DueEvent.windowEnd c ∈ (blockBoundary s).due ↔ 9 ≤ r.tone.blocks := by
  have hstamp : DueEvent.windowEnd c ∉ if s.stampDue = true then [DueEvent.stampAdvance] else [] := by split <;> simp
  rw [blockBoundary_due, List.mem_append, or_iff_left hstamp, List.mem_flatMap]
  constructor
  · rintro ⟨e, he, hmem⟩
    obtain ⟨rfl, _, hfull⟩ := windowEnd_mem_dueEvents.1 hmem
    have : some e.2 = some r := (tget_of_mem hs he).symm.trans hr
    exact Option.some.inj this ▸ hfull
  · exact fun hfull => ⟨(c, r), mem_of_tget hr, windowEnd_mem_dueEvents.2 ⟨rfl, hw, hfull⟩⟩

/-- The block enters WARNED exactly when the band is SOUND before the boundary and WARNED after it (R131). -/
theorem entersWarned_iff (s : State) (sel : List Nat) (c : Nat) (r : Record) :
    (workedBlock r && entersWarned (viewBlock (s.profileOf r) (s.histOf r) r) r) =
      (decide (r.div.band = .sound) && decide ((s.boundaryRecord sel c r).div.band = .warned)) := by
  by_cases hw : workedBlock r = true
  · have hdiv : (s.boundaryRecord sel c r).div = divEnd (viewBlock (s.profileOf r) (s.histOf r) r) r := by
      rw [State.boundaryRecord, recordEnd, if_pos hw]
      rfl
    rw [hw, hdiv]
    rfl
  · have hdiv : (s.boundaryRecord sel c r).div = r.div := by
      rw [State.boundaryRecord, recordEnd, if_neg hw]
      split <;> rfl
    rw [hdiv]
    cases hb : r.div.band <;> simp [hw]

theorem warnedNow_nodup {s : State} (hs : rising s.ctxs = true) : s.warnedNow.Nodup := by
  have hkeys : (s.ctxs.map (·.1)).Nodup :=
    List.pairwise_map.2 ((pairwise_of_rising hs).imp fun hlt => Nat.ne_of_lt hlt)
  exact hkeys.sublist (List.filter_sublist.map _)

/-- The contexts in which a boundary newly sets WARNED, counted on the table of contexts. -/
theorem countP_warnedNow {s : State} (hs : rising s.ctxs = true) (hit : Route → Bool) :
    s.warnedNow.countP (owes .warned hit (measured s)) = s.ctxs.countP fun e =>
      decide (e.2.div.band = .sound) && (((blockBoundary s).rec? e.1).any fun q => decide (q.div.band = .warned)) &&
        !hasKind e.2.notes.kinds .warned && hit (routeOf e.2.notes.routing .warned) := by
  rw [State.warnedNow, List.countP_map, List.countP_filter]
  refine List.countP_congr fun e he => ?_
  have hr : s.rec? e.1 = some e.2 := tget_of_mem hs he
  obtain ⟨w, hq⟩ := rec?_blockBoundary hr
  have hnotes : (s.boundaryRecord s.selection e.1 e.2).notes = e.2.notes := recordEnd_notes ..
  rw [hq, entersWarned_iff s s.selection e.1 e.2]
  simp only [Function.comp_apply, owes, rec?_measured, hr, Option.map_some, Option.any_some, hnotes, Bool.and_eq_true]
  tauto

/-- Settles O16. -/
theorem workedBlockFrame : Obligations.WorkedBlockFrame := by
  intro s t hphase hrise ht
  obtain rfl := Host.Outcome.next.inj ((takes_blockBoundary hphase).symm.trans ht)
  intro w newly a b
  have hrise : rising w.ctxs = true := hrise
  have hlines := raises_lines .warned (warnedNow_nodup hrise) (measured w)
  rw [countP_warnedNow hrise, countP_warnedNow hrise] at hlines
  have hA : ∀ m, routesToA m = fun r => decide (r = .a) || decide (r = .both) || (m && decide (r = .b)) := fun m => by
    funext r
    cases r <;> simp [routesToA]
  have hB : ∀ m, routesToB m = fun r => !m && (decide (r = .b) || decide (r = .both)) := fun m => by
    funext r
    cases r <;> simp [routesToB]
  refine ⟨?_, ?_, ?_, fun c hc => rec?_blockBoundary_none hc, fun c r hr hst hw => ?_⟩
  · have := blockBoundary_frame w w.ctxs w.lineA w.lineB
    generalize blockBoundary w = v at this ⊢
    exact congrArg (fun x : State => { x with
      phase := w.phase, blockCounter := w.blockCounter, pointer := w.pointer, pool := w.pool, units := w.units
      prescale := w.prescale, due := w.due }) this
  · exact hlines.1.trans (by rw [hA]; rfl)
  · exact hlines.2.trans (by rw [hB]; rfl)
  · refine ⟨windowEnd_mem_due hrise hr (by simp [workedBlock, hst, hw]), ?_⟩
    obtain ⟨kinds, hq⟩ := rec?_blockBoundary hr
    rw [boundaryRecord_of_worked hst hw] at hq
    have htone : (if windowFull r.tone = true then r.tone else { r.tone with blocks := r.tone.blocks + 1 }) =
        { r.tone with blocks := if 9 ≤ r.tone.blocks then r.tone.blocks else r.tone.blocks + 1 } := by
      by_cases h : 9 ≤ r.tone.blocks <;> simp [windowFull, h]
    refine ⟨_, hq, ?_⟩
    simp only [workedEnd, htone]
    rfl

/-! ### The stamp counter (R61, R62) -/

theorem stampAdvance_mem_due (s : State) : DueEvent.stampAdvance ∈ (blockBoundary s).due ↔ s.stampUnit ≤ s.prescale + 1 := by
  have hrecords : DueEvent.stampAdvance ∉
      s.ctxs.flatMap fun e => dueEvents (s.profileOf e.2) (s.histOf e.2) e.1 e.2 := by
    simp only [List.mem_flatMap, not_exists, not_and]
    intro e _
    unfold dueEvents
    split <;> simp
  rw [blockBoundary_due, List.mem_append, or_iff_right hrecords]
  by_cases h : s.stampUnit ≤ s.prescale + 1 <;> simp [State.stampDue, h]

theorem blockBoundary_prescale (s : State) :
    (blockBoundary s).prescale = if s.stampUnit ≤ s.prescale + 1 then s.prescale else s.prescale + 1 := by
  have : (blockBoundary s).prescale = if s.stampDue = true then s.prescale else s.prescale + 1 :=
    foldl_keeps (fun t : State => t.prescale) _ (by simp) _ _
  simpa [State.stampDue] using this

theorem takeDue_of_mem {e : DueEvent} {s : State} (h : e ∈ s.due) :
    takeDue e s = takeEvent e { s with due := s.due.erase e } := if_pos h

/-- Settles O19. -/
theorem stampCounter : Obligations.StampCounter := by
  refine ⟨fun s hphase => ?_, fun s hdue => ?_, fun s => ?_⟩
  · refine ⟨_, takes_blockBoundary hphase, foldl_keeps (fun t : State => t.stamp) _ (by simp) _ _, ?_⟩
    have hmem := stampAdvance_mem_due (settle s)
    have hprescale := blockBoundary_prescale (settle s)
    rw [settle_stampUnit] at hmem hprescale
    split
    · next h => exact ⟨hmem.2 h, by rw [hprescale, if_pos h]⟩
    · next h => exact ⟨fun hm => h (hmem.1 hm), by rw [hprescale, if_neg h]⟩
  · refine ⟨_, congrArg Host.Outcome.next (takeDue_of_mem hdue), rfl, ?_, rfl, rfl⟩
    show (s.stamp + 1).toNat = _
    rw [BitVec.toNat_add]
    rfl
  · refine congrArg Host.Outcome.next (command_responds ?_)
    have hbody : be16 0 ++ [nat8 (settle s).stampUnit] ++ be32 (settle s).blockCounter =
        be16 0 ++ [nat8 s.stampUnit] ++ be32 s.blockCounter := by rw [settle_stampUnit, settle_blockCounter]
    exact congrArg (fun l => ({ settle s with stamp := 0, prescale := 0 }, answer l)) hbody

end Sys2Proof.FrameTiming


/-! PROOFS. When events are taken: the events still due, which every operation of an event leaves alone; settling as a run of
rows; events that are not due; and the end of a frame as a run of rows (log 3 to 7, 17); O20. -/

namespace Sys2Proof.FrameTiming

open Sys2Proof Sys2Proof.Machine Sys2Proof.TapSegments

/-! ### Events due before others -/

/-- `s` with the events of `d` due before its own. -/
def owing (d : List DueEvent) (s : State) : State := { s with due := d ++ s.due }

section
variable (d : List DueEvent) (c : Nat) (s : State)

theorem rec?_owing : (owing d s).rec? c = s.rec? c := rfl

theorem dueLast_owing (e : DueEvent) : { owing d s with due := (owing d s).due ++ [e] } = owing d { s with due := s.due ++ [e] } :=
  congrArg (fun l => { s with due := l }) (List.append_assoc ..)

theorem raise_owing (k : Kind) : raise k c (owing d s) = owing d (raise k c s) := by
  unfold raise
  rw [rec?_owing]
  cases s.rec? c with
  | none => rfl
  | some r => dsimp only; split <;> rfl

theorem modRec_owing (f : Record → Record) : (owing d s).modRec c f = owing d (s.modRec c f) := by
  unfold State.modRec
  rw [rec?_owing]
  cases s.rec? c <;> rfl

theorem writeDetail_owing (x : Detail) : writeDetail c x (owing d s) = owing d (writeDetail c x s) := modRec_owing ..

theorem setLink_owing (l : SearchLink) : setLink l c (owing d s) = owing d (setLink l c s) := modRec_owing ..

theorem startSearch_owing (u : Nat) (b : Bool) : startSearch u c b (owing d s) = owing d (startSearch u c b s) := by
  unfold startSearch
  rw [rec?_owing]
  cases s.rec? c <;> rfl

theorem freeUnit_owing (u : Nat) (b : Bool) : freeUnit u b (owing d s) = owing d (freeUnit u b s) := by
  cases hq : s.queue with
  | nil =>
    have hq' : (owing d s).queue = [] := hq
    simp only [freeUnit, hq, hq']
    rfl
  | cons x l =>
    have hq' : (owing d s).queue = x :: l := hq
    simp only [freeUnit, hq, hq']
    exact startSearch_owing d x { s with units := tdel u s.units, queue := x :: l } u b

theorem endSearch_owing (b : Bool) : endSearch c b (owing d s) = owing d (endSearch c b s) := by
  unfold endSearch
  rw [rec?_owing]
  cases s.rec? c with
  | none => rfl
  | some r =>
    dsimp only
    cases r.link with
    | none => rfl
    | queued => dsimp only; rw [setLink_owing]; rfl
    | searching u => dsimp only; rw [setLink_owing, freeUnit_owing]

theorem requestSearch_owing (b : Bool) : requestSearch c b (owing d s) = owing d (requestSearch c b s) := by
  have hidle : (owing d s).idleUnit = s.idleUnit := rfl
  unfold requestSearch
  rw [rec?_owing, hidle]
  cases s.rec? c with
  | none => rfl
  | some r =>
    dsimp only
    split
    · rfl
    · rfl
    · rfl
    · split
      · exact startSearch_owing ..
      · rw [setLink_owing]; rfl

theorem changeMain_owing (m : MainState) (b : Bool) : changeMain m c b (owing d s) = owing d (changeMain m c b s) := by
  unfold changeMain
  rw [rec?_owing]
  cases s.rec? c with
  | none => rfl
  | some r =>
    have hend := endSearch_owing d c (s.setRec c (enterMain m r)) b
    dsimp only
    split
    · rfl
    · rw [← writeDetail_owing]
      split
      · rfl
      · rw [← hend]; rfl

theorem changeTone_owing (x : ToneSub) : changeTone x c (owing d s) = owing d (changeTone x c s) := by
  unfold changeTone
  rw [rec?_owing]
  cases s.rec? c with
  | none => rfl
  | some r =>
    dsimp only
    rw [← writeDetail_owing, ← raise_owing]
    rfl

/-! ### The events of a boundary leave the events that are due alone -/

theorem takeConvergence_owing : takeConvergence c (owing d s) = owing d (takeConvergence c s) := by
  unfold takeConvergence
  rw [rec?_owing]
  cases s.rec? c with
  | none => rfl
  | some r =>
    dsimp only
    cases r.main with
    | acquire => dsimp only; rw [changeMain_owing, raise_owing]
    | observe | track | held | cut => rfl

theorem takeExpiry_owing : takeExpiry c (owing d s) = owing d (takeExpiry c s) := by
  unfold takeExpiry
  rw [rec?_owing]
  cases s.rec? c with
  | none => rfl
  | some r =>
    dsimp only
    split
    · split
      · rw [← requestSearch_owing, ← raise_owing]; rfl
      · rw [← raise_owing]; rfl
      · rfl
    · rfl

theorem takeCut_owing : takeCut c (owing d s) = owing d (takeCut c s) := by
  unfold takeCut
  rw [rec?_owing]
  cases s.rec? c with
  | none => rfl
  | some r =>
    dsimp only
    split
    · rw [← raise_owing, ← changeMain_owing]; rfl
    · rfl

theorem takeRecovery_owing : takeRecovery c (owing d s) = owing d (takeRecovery c s) := by
  have hprofile : ∀ r, (owing d s).profileOf r = s.profileOf r := fun _ => rfl
  unfold takeRecovery
  rw [rec?_owing]
  cases s.rec? c with
  | none => rfl
  | some r =>
    dsimp only
    rw [hprofile]
    split
    · cases (s.profileOf r).recovery with
      | auto => dsimp only; rw [← raise_owing, ← requestSearch_owing, ← changeMain_owing]; rfl
      | holdAfter => dsimp only; rw [← raise_owing, ← changeMain_owing]; rfl
      | stay | holdAtCut => rfl
    · rfl

theorem takeLevel_owing (x : Dir) : takeLevel c x (owing d s) = owing d (takeLevel c x s) := by
  rw [takeLevel, modRec_owing, raise_owing]
  rfl

theorem windowEndOff_owing (r : Record) : windowEndOff c r (owing d s) = owing d (windowEndOff c r s) := by
  unfold windowEndOff
  split
  · rfl
  · rw [← changeTone_owing]; rfl

theorem countRelease_owing (p : Profile) (r : Record) (x : ToneGroup) :
    windowEndOn.countRelease p c r (owing d s) x = owing d (windowEndOn.countRelease p c r s x) := by
  unfold windowEndOn.countRelease
  dsimp only
  generalize (if quietWindow p.wRel r.tone = true then min 25 (x.release + 1) else 0) = n
  split
  · exact dueLast_owing d (s.setRec c { r with tone := { x with release := n } }) _
  · rfl

theorem windowEndOn_owing (p : Profile) (r : Record) : windowEndOn p c r (owing d s) = owing d (windowEndOn p c r s) := by
  unfold windowEndOn
  dsimp only
  split
  · split
    · exact dueLast_owing d (s.setRec c { r with tone := windowRuns p.wMin r.tone }) _
    · rfl
  · split
    · rw [← changeTone_owing]; rfl
    · exact countRelease_owing ..
  · exact countRelease_owing ..

theorem takeWindowEnd_owing : takeWindowEnd c (owing d s) = owing d (takeWindowEnd c s) := by
  have hprofile : ∀ r, (owing d s).profileOf r = s.profileOf r := fun _ => rfl
  unfold takeWindowEnd
  rw [rec?_owing]
  cases s.rec? c with
  | none => rfl
  | some r =>
    dsimp only
    rw [hprofile]
    split
    · exact windowEndOn_owing ..
    · exact windowEndOff_owing ..

theorem takeToneEntry_owing : takeToneEntry c (owing d s) = owing d (takeToneEntry c s) := by
  unfold takeToneEntry
  rw [rec?_owing]
  cases s.rec? c with
  | none => rfl
  | some r =>
    dsimp only
    split
    · exact changeTone_owing ..
    · rfl

theorem takeRelease_owing : takeRelease c (owing d s) = owing d (takeRelease c s) := by
  unfold takeRelease
  rw [rec?_owing]
  cases s.rec? c with
  | none => rfl
  | some r =>
    dsimp only
    split
    · rfl
    · rw [← changeTone_owing]; rfl

theorem takeEvent_owing (e : DueEvent) : takeEvent e (owing d s) = owing d (takeEvent e s) := by
  cases e with
  | convergence c => exact takeConvergence_owing ..
  | expiry c => exact takeExpiry_owing ..
  | cut c => exact takeCut_owing ..
  | recovery c => exact takeRecovery_owing ..
  | level c x => exact takeLevel_owing ..
  | noiseFloorRise c => exact modRec_owing ..
  | stampAdvance => rfl
  | windowEnd c => exact takeWindowEnd_owing ..
  | toneEntry c => exact takeToneEntry_owing ..
  | release c => exact takeRelease_owing ..

end

/-! ### What an event makes due -/

/-- The events that a window end makes due. -/
def FromWindow (e : DueEvent) : Prop := ∃ c, e = .toneEntry c ∨ e = .release c

theorem countRelease_due (p : Profile) (c : Nat) (r : Record) (s : State) (x : ToneGroup) :
    (windowEndOn.countRelease p c r s x).due = s.due ∨ (windowEndOn.countRelease p c r s x).due = s.due ++ [.release c] := by
  unfold windowEndOn.countRelease
  dsimp only
  generalize (if quietWindow p.wRel r.tone = true then min 25 (x.release + 1) else 0) = n
  split
  · exact .inr rfl
  · exact .inl rfl

theorem takeWindowEnd_due (c : Nat) (s : State) : (takeWindowEnd c s).due = s.due ∨
    (takeWindowEnd c s).due = s.due ++ [.toneEntry c] ∨ (takeWindowEnd c s).due = s.due ++ [.release c] := by
  unfold takeWindowEnd
  cases s.rec? c with
  | none => exact .inl rfl
  | some r =>
    dsimp only
    split
    · unfold windowEndOn
      dsimp only
      split
      · split
        · exact .inr (.inl rfl)
        · exact .inl rfl
      · split
        · exact .inl (by simp)
        · exact (countRelease_due ..).imp_right .inr
      · exact (countRelease_due ..).imp_right .inr
    · unfold windowEndOff
      split
      · exact .inl rfl
      · exact .inl (by simp)

/-- Every event but a WINDOW_END leaves what is due as it is. -/
theorem takeEvent_due {e : DueEvent} (he : ∀ c, e ≠ .windowEnd c) (s : State) : (takeEvent e s).due = s.due := by
  cases e with
  | windowEnd c => exact absurd rfl (he c)
  | stampAdvance => rfl
  | _ => simp [takeEvent]

theorem fromWindow_takeEvent (e : DueEvent) {s : State} (hs : ∀ x ∈ s.due, FromWindow x) :
    ∀ x ∈ (takeEvent e s).due, FromWindow x := by
  have hsnoc : ∀ y, FromWindow y → ∀ x ∈ s.due ++ [y], FromWindow x := fun y hy x hx => by
    rcases List.mem_append.1 hx with hx | hx
    · exact hs x hx
    · rwa [List.mem_singleton.1 hx]
  by_cases hw : ∃ c, e = .windowEnd c
  · obtain ⟨c, rfl⟩ := hw
    show ∀ x ∈ (takeWindowEnd c s).due, FromWindow x
    rcases takeWindowEnd_due c s with h | h | h <;> rw [h]
    · exact hs
    · exact hsnoc _ ⟨c, .inl rfl⟩
    · exact hsnoc _ ⟨c, .inr rfl⟩
  · rw [takeEvent_due (not_exists.1 hw)]
    exact hs

theorem fromWindow_settlePass (s : State) : ∀ x ∈ (settlePass s).due, FromWindow x :=
  foldl_keepsProp (P := fun t : State => ∀ x ∈ t.due, FromWindow x) (fun _ e ht => fromWindow_takeEvent e ht) s.due
    (x := { s with due := [] }) (List.forall_mem_nil _)

/-- When only events of window ends are due, taking them leaves none. -/
theorem settlePass_due {s : State} (h : ∀ x ∈ s.due, FromWindow x) : (settlePass s).due = [] := by
  refine List.foldlRecOn s.due _ (motive := fun t : State => t.due = []) rfl fun t ht e he => ?_
  obtain ⟨c, rfl | rfl⟩ := h e he
  · exact (takeEvent_due (by simp) t).trans ht
  · exact (takeEvent_due (by simp) t).trans ht

theorem settle_eq_settlePass (s : State) : settle s = settlePass (settlePass s) := by
  have hdue := settlePass_due (fromWindow_settlePass s)
  unfold settle
  generalize settlePass (settlePass s) = t at hdue ⊢
  rw [← hdue]

/-! ### Runs of rows -/

theorem runs_append {l m : List Instr} {s t u : State} (hl : runs l s t) (hm : runs m t u) : runs (l ++ m) s u := by
  induction l generalizing s with
  | nil => exact (hl : t = s) ▸ hm
  | cons i l ih =>
    obtain ⟨x, hx, hl⟩ := hl
    exact ⟨x, hx, ih hl⟩

theorem takes_rowOf (e : DueEvent) (s : State) : takes (rowOf e) s (takeDue e s) := by cases e <;> rfl

/-- The rows of the events that are due first, taken in their order. -/
theorem runs_owing (l : List DueEvent) (s : State) : runs (l.map rowOf) (owing l s) (l.foldl (fun t e => takeEvent e t) s) := by
  induction l generalizing s with
  | nil => rfl
  | cons e l ih =>
    have htake : takeDue e (owing (e :: l) s) = owing l (takeEvent e s) := by
      rw [takeDue_of_mem (List.mem_cons_self ..), ← takeEvent_owing]
      exact congrArg (fun m => takeEvent e { s with due := m }) (List.erase_cons_head ..)
    exact ⟨_, htake ▸ takes_rowOf .., ih _⟩

theorem runs_settlePass (s : State) : runs (s.due.map rowOf) s (settlePass s) := by
  have : s = owing s.due { s with due := [] } := by simp [owing]
  have hrun := runs_owing s.due { s with due := [] }
  rwa [← this] at hrun

theorem runs_settle (s : State) : ∃ l, (∀ e ∈ l, FromWindow e) ∧ runs ((s.due ++ l).map rowOf) s (settle s) := by
  refine ⟨(settlePass s).due, fromWindow_settlePass s, ?_⟩
  rw [List.map_append, settle_eq_settlePass]
  exact runs_append (runs_settlePass s) (runs_settlePass _)

/-! ### Events that are not due -/

theorem takeDue_of_not_mem {e : DueEvent} {s : State} (h : e ∉ s.due) : takes (rowOf e) s s := by
  have hkept : takeDue e s = s := if_neg h
  have := takes_rowOf e s
  rwa [hkept] at this

theorem takeSync_of_not {brings : Highway → Bool} {act : Nat → Highway → State → State} {h : Nat} {s : State}
    (hn : ∀ y, tget h s.sync = some y → ¬brings y = true) : takeSync brings act h s = s := by
  unfold takeSync
  cases hy : tget h s.sync with
  | none => rfl
  | some y => exact if_neg (hn y hy)

theorem takeSearchEnd_of_not {ends : SearchUnit → Bool} {act : Nat → SearchUnit → Bool → State → State} {u : Nat} {s : State}
    (hn : ∀ un, tget u (settle s).units = some un →
      ¬if 8 ≤ s.phase then un.begun = true ∧ ends ((settle s).unitEnd un) = true else ends un = true) :
    takeSearchEnd ends act u s = s := by
  unfold takeSearchEnd
  dsimp only
  cases hu : tget u (settle s).units with
  | none => rfl
  | some un =>
    have hend := hn un hu
    dsimp only
    rw [settle_boundaryDue]
    by_cases hphase : 8 ≤ s.phase
    · rw [if_pos hphase] at hend
      rw [if_pos (by simpa [State.boundaryDue] using hphase), if_neg (by simpa using hend)]
    · rw [if_neg hphase] at hend
      rw [if_neg (by simpa [State.boundaryDue] using hphase), if_neg hend]

/-! ### The end of a frame -/

/-- A unit that was freed is IDLE or at the start of a search. -/
theorem unended_of_freed {u : Nat} {b : Bool} {s : State} {un : SearchUnit} (h : tget u (freeUnit u b s).units = some un) :
    Unended un := by
  rcases freeUnit_cases u b s with ⟨_, he⟩ | ⟨c, _, _, he⟩
  · rw [he, tget_tdel_same] at h
    cases h
  · rw [he] at h
    unfold startSearch at h
    split at h
    · rw [tget_tdel_same] at h
      cases h
    · rw [tget_tset_same] at h
      exact Option.some.inj h ▸ unended_freshUnit ..

/-- Between boundaries and with nothing due, the row of a search's end looks at the unit as it is. -/
theorem takeSearchEnd_settled (ends : SearchUnit → Bool) (act : Nat → SearchUnit → Bool → State → State) (u : Nat) {s : State}
    (hdue : s.due = []) (hphase : s.phase < 8) : takeSearchEnd ends act u s =
      (tget u s.units).elim s fun un => if ends un then act u un true s else s := by
  have hb : s.boundaryDue = false := by simpa [State.boundaryDue] using hphase
  unfold takeSearchEnd
  rw [settle_of_due_nil hdue]
  dsimp only
  rw [hb]
  cases tget u s.units <;> rfl

theorem runs_finishUnit (u : Nat) {s : State} (hdue : s.due = []) (hphase : s.phase < 8) :
    runs [.searchCompletion u, .searchFailure u] s (finishUnit s u) := by
  have hrow := fun ends act => takeSearchEnd_settled ends act u hdue hphase
  refine ⟨takeSearchEnd SearchUnit.complete completeSearch u s, rfl, finishUnit s u, congrArg Host.Outcome.next ?_, rfl⟩
  have hcomplete := hrow SearchUnit.complete completeSearch
  have hfailed := hrow SearchUnit.failed failSearch
  unfold finishUnit
  cases hu : tget u s.units with
  | none =>
    rw [hu, Option.elim_none] at hcomplete hfailed
    rw [hcomplete, hfailed]
  | some un =>
    rw [hu] at hcomplete hfailed
    dsimp only [Option.elim_some] at hcomplete hfailed ⊢
    by_cases hc : un.complete = true
    · rw [if_pos hc] at hcomplete ⊢
      rw [hcomplete, takeSearchEnd_settled _ _ _ (by simpa using hdue) (by simpa using hphase)]
      cases hx : tget u (completeSearch u un true s).units with
      | none => rfl
      | some x => exact if_neg fun hf => not_unended_of_failed hf (unended_of_freed hx)
    · rw [if_neg hc] at hcomplete ⊢
      rw [hcomplete, hfailed]

theorem finishUnit_phase (s : State) (u : Nat) : (finishUnit s u).phase = s.phase :=
  (sameFixed_of_edits (edits_finishUnit s u)).phase

theorem runs_finishUnits {s : State} (hdue : s.due = []) (hphase : s.phase < 8) :
    runs [.searchCompletion 0, .searchFailure 0, .searchCompletion 1, .searchFailure 1, .searchCompletion 2, .searchFailure 2,
      .searchCompletion 3, .searchFailure 3] s (finishUnit (finishUnit (finishUnit (finishUnit s 0) 1) 2) 3) := by
  have hnext : ∀ (u : Nat) (t : State), t.due = [] ∧ t.phase < 8 → (finishUnit t u).due = [] ∧ (finishUnit t u).phase < 8 :=
    fun u t ht => ⟨(finishUnit_due t u).trans ht.1, (finishUnit_phase t u).trans_lt ht.2⟩
  have h0 := hnext 0 s ⟨hdue, hphase⟩
  have h1 := hnext 1 _ h0
  have h2 := hnext 2 _ h1
  exact runs_append (runs_finishUnit 0 hdue hphase) (runs_append (runs_finishUnit 1 h0.1 h0.2)
    (runs_append (runs_finishUnit 2 h1.1 h1.2) (runs_finishUnit 3 h2.1 h2.2)))

/-! ### The observations made, and the frame begun -/

/-- Making observations changes the highways, their notices and the lines alone. -/
theorem allObserved_frame (s : State) (m : List (Nat × Highway)) (k : List (Nat × BitVec 2)) (a b : AlertLine) :
    { allObserved s with sync := m, hwKinds := k, lineA := a, lineB := b } =
      { s with sync := m, hwKinds := k, lineA := a, lineB := b } := by
  refine foldl_keeps (fun t : State => { t with sync := m, hwKinds := k, lineA := a, lineB := b }) _ (fun t h => ?_) _ s
  rcases makeObs_cases h t with ⟨he, _⟩ | ⟨y, _, ⟨_, he⟩ | ⟨_, he⟩ | ⟨_, _, he⟩⟩ <;> rw [he]
  · exact congrArg (fun x : State => { x with sync := m, hwKinds := k, lineA := a, lineB := b })
      (raiseHw_frame .syncLost h (countedHighway h y t))
  · exact congrArg (fun x : State => { x with sync := m, hwKinds := k, lineA := a, lineB := b })
      (raiseHw_frame .syncBack h (countedHighway h y t))
  · rfl

/-- The pending kinds of a highway after its observation (R54). -/
def noticed (y : Option Highway) (w : BitVec 2) : BitVec 2 :=
  match y with
  | none => w
  | some y => if y.loses then w ||| 1#2 else if y.returns then w ||| 2#2 else w

theorem hwPending_makeObs (s : State) (h k : Nat) :
    (makeObs s h).hwPending k = if k = h then noticed (tget h s.sync) (s.hwPending h) else s.hwPending k := by
  rcases makeObs_cases h s with ⟨he, hobs⟩ | ⟨y, hy, hcase⟩
  · have hsame : noticed (tget h s.sync) (s.hwPending h) = s.hwPending h := by
      cases hy : tget h s.sync with
      | none => rfl
      | some y =>
        rw [hy] at hobs
        have hheld : (observed y).obs = none := by
          unfold observed
          split
          · next ho => exact ho
          · next g _ => cases g <;> rfl
        rw [Option.some.inj hobs] at hheld
        simp [noticed, Highway.loses, Highway.returns, hheld]
    rw [he, hsame]
    split
    · next hk => rw [hk]
    · rfl
  · rw [hy]
    have hcounted : ∀ j, (countedHighway h y s).hwPending j = s.hwPending j := fun _ => rfl
    rcases hcase with ⟨hl, he⟩ | ⟨hr, he⟩ | ⟨hl, hr, he⟩ <;> rw [he]
    · rw [hwPending_raiseHw, hcounted, hcounted, noticed, if_pos hl]; rfl
    · have hl : y.loses = false := by simp [Highway.loses, (obs_of_returns hr).1]
      rw [hwPending_raiseHw, hcounted, hcounted, noticed, hl, if_neg Bool.false_ne_true, if_pos hr]; rfl
    · simp only [noticed, hl, hr, Bool.false_eq_true, if_false, hcounted]
      split
      · next hk => rw [hk]
      · rfl

theorem hwPending_observations (n : Nat) (s : State) (h : Nat) : ((List.range n).foldl makeObs s).hwPending h =
    if h < n then noticed (tget h s.sync) (s.hwPending h) else s.hwPending h := by
  induction n with
  | zero => rfl
  | succ n ih =>
    rw [List.range_succ, List.foldl_append, List.foldl_cons, List.foldl_nil, hwPending_makeObs]
    by_cases hn : h = n
    · subst hn
      rw [if_pos rfl, tget_observations, if_neg (Nat.lt_irrefl h), ih, if_neg (Nat.lt_irrefl h), if_pos (Nat.lt_succ_self h)]
    · rw [if_neg hn, ih]
      congr 1
      exact propext (by omega)

theorem boundaryTaken_hwKinds (s : State) : (boundaryTaken s).hwKinds = s.hwKinds := by
  unfold boundaryTaken
  split
  · have : (blockBoundary (settle s)).hwKinds = (settle s).hwKinds :=
      foldl_keeps (fun t : State => t.hwKinds) _ (by intro t c; exact raise_hwKinds ..) _ _
    rw [this, settle_hwKinds]
  · rfl

theorem finishUnit_hwKinds (s : State) (u : Nat) : (finishUnit s u).hwKinds = s.hwKinds := by
  unfold finishUnit
  split
  · rfl
  · split
    · simp
    · split <;> simp

theorem closeFrame_hwKinds (s : State) : (closeFrame s).hwKinds = (allObserved s).hwKinds := by
  rw [closeFrame_eq]
  exact (foldl_keeps (fun t : State => t.hwKinds) _ finishUnit_hwKinds _ _).trans
    ((settle_hwKinds _).trans (boundaryTaken_hwKinds _))

theorem hwPending_frameTaken (rIn sIn : List Sample) (marks : List SyncMarks) (s : State) (h : Nat) :
    (frameTaken rIn sIn marks (atFrame s)).hwPending h =
      if h < 8 then noticed (tget h s.sync) (s.hwPending h) else s.hwPending h := by
  have hkinds : (frameTaken rIn sIn marks (atFrame s)).hwKinds = (closeFrame s).hwKinds := by
    unfold atFrame
    generalize closeFrame s = v
    rfl
  rw [State.hwPending, hkinds, closeFrame_hwKinds, ← hwPending_observations 8 s h]
  rfl

/-- A frame's samples and observations change slots, records, units and highways alone, and bring none into being. -/
theorem frameTaken_frame (rIn sIn : List Sample) (marks : List SyncMarks) (a : State) :
    let t := frameTaken rIn sIn marks a
    { t with slots := a.slots, ctxs := a.ctxs, units := a.units, sync := a.sync, phase := a.phase } = a ∧
      t.slots.length = a.slots.length ∧ t.ctxs.map (·.1) = a.ctxs.map (·.1) ∧ t.units.map (·.1) = a.units.map (·.1) ∧
      t.sync.map (·.1) = a.sync.map (·.1) :=
  ⟨rfl, frameTaken_slots_length .., List.map_map .., List.map_map .., List.map_map ..⟩

theorem frameTaken_phase (rIn sIn : List Sample) (marks : List SyncMarks) (a : State) :
    (frameTaken rIn sIn marks a).phase = a.phase + 1 := rfl

theorem frameTaken_due (rIn sIn : List Sample) (marks : List SyncMarks) (a : State) :
    (frameTaken rIn sIn marks a).due = a.due := rfl

theorem boundaryTaken_phase_lt (s : State) : (boundaryTaken s).phase < 8 := by
  rw [boundaryTaken_phase]
  split
  · exact Nat.zero_lt_succ _
  · next h => exact Nat.lt_of_not_le h

theorem atFrame_due (s : State) : (atFrame s).due = [] := by
  have := closeFrame_due s
  unfold atFrame
  generalize closeFrame s = v at this ⊢
  exact this

/-- Settles O20. -/
theorem eventsInTime : Obligations.EventsInTime := by
  refine ⟨fun s => ⟨settle_due s, settle_settle s, runs_settle s⟩, fun c d s => ?_, fun h s => ?_, fun s hphase => ?_,
    fun u s => ?_, fun rIn sIn marks s => ?_⟩
  · exact ⟨takeDue_of_not_mem, takeDue_of_not_mem, takeDue_of_not_mem, takeDue_of_not_mem, takeDue_of_not_mem, takeDue_of_not_mem,
      takeDue_of_not_mem, takeDue_of_not_mem, takeDue_of_not_mem, takeDue_of_not_mem⟩
  · refine ⟨fun hn => congrArg Host.Outcome.next (takeSync_of_not fun y hy hb => hn ⟨y, hy, obs_of_locks hb⟩),
      fun hn => congrArg Host.Outcome.next (takeSync_of_not fun y hy hb => hn ⟨y, hy, obs_of_loses hb⟩),
      fun hn => congrArg Host.Outcome.next (takeSync_of_not fun y hy hb => hn ⟨y, hy, obs_of_returns hb⟩)⟩
  · exact congrArg Host.Outcome.next (if_neg (by simpa [State.boundaryDue] using hphase))
  · refine ⟨fun hn => congrArg Host.Outcome.next (takeSearchEnd_of_not fun un hu he => hn ⟨un, hu, ?_⟩),
      fun hn => congrArg Host.Outcome.next (takeSearchEnd_of_not fun un hu he => hn ⟨un, hu, ?_⟩)⟩
    · simpa [SearchUnit.complete] using he
    · simpa [SearchUnit.failed] using he
  · have hphase := allObserved_phase s
    refine ⟨boundaryTaken (allObserved s), frameTaken rIn sIn marks (atFrame s), allObserved_frame .., fun h8 => ?_, fun h8 => ?_,
      ?_, closeFrame_phase s, closeFrame_due s, takes_frame .., ?_, ?_, frameTaken_frame .., fun h => ?_⟩
    · have htake := takes_blockBoundary (hphase.symm ▸ h8)
      rwa [boundaryTaken, if_pos (by simpa [State.boundaryDue, hphase] using h8)]
    · exact if_neg (by simpa [State.boundaryDue, hphase] using h8)
    · rw [closeFrame_eq_finishUnits]
      refine runs_finishUnits (settle_due _) ?_
      rw [settle_phase]
      exact boundaryTaken_phase_lt _
    · exact (frameTaken_phase ..).trans (congrArg (· + 1) (openFrame_phase _))
    · exact (frameTaken_due ..).trans (atFrame_due s)
    · rw [hwPending_frameTaken]
      cases hy : tget h s.sync with
      | none => simp [noticed]
      | some y =>
        by_cases hh : h < 8 <;> simp [noticed, hh, Highway.loses, Highway.returns, and_assoc]

end Sys2Proof.FrameTiming


/-! PROOFS. CONFIGURE and READ CONFIG (R58, R188 to R190); O47. -/

namespace Sys2Proof.FrameTiming

open Sys2Proof Sys2Proof.Machine Sys2Proof.TapSegments

/-! ### The report of the settings -/

theorem byte_of_bits : ∀ b0 b1 b2 b3 b4 b5 b6 b7 : Bool,
    BitVec.ofBool b7 ++ BitVec.ofBool b6 ++ BitVec.ofBool b5 ++ BitVec.ofBool b4 ++ BitVec.ofBool b3 ++ BitVec.ofBool b2 ++
      BitVec.ofBool b1 ++ BitVec.ofBool b0 = BitVec.ofNat 8 (List.sum [if b0 then 2 ^ 0 else 0, if b1 then 2 ^ 1 else 0,
        if b2 then 2 ^ 2 else 0, if b3 then 2 ^ 3 else 0, if b4 then 2 ^ 4 else 0, if b5 then 2 ^ 5 else 0,
        if b6 then 2 ^ 6 else 0, if b7 then 2 ^ 7 else 0]) := by decide

theorem routingByte_eq (lost back : Route) :
    (0#4 ++ back.bits ++ lost.bits : Byte) = BitVec.ofNat 8
      ((match lost with | .none => 0 | .a => 1 | .b => 2 | .both => 3) +
        4 * (match back with | .none => 0 | .a => 1 | .b => 2 | .both => 3)) := by
  cases lost <;> cases back <;> rfl

theorem modeByte_eq (a b : LineMode) (m : Bool) (k : DetailPolicy) :
    (0#4 ++ BitVec.ofBool (k == .keep) ++ BitVec.ofBool m ++ BitVec.ofBool (b == .pulsed) ++ BitVec.ofBool (a == .pulsed) : Byte) =
      BitVec.ofNat 8 ((if a = .pulsed then 2 ^ 0 else 0) + (if b = .pulsed then 2 ^ 1 else 0) + (if m then 2 ^ 2 else 0) +
        if k = .keep then 2 ^ 3 else 0) := by
  cases a <;> cases b <;> cases m <;> cases k <;> rfl

/-- The 15 bytes of READ CONFIG are those of R189 and R190. -/
theorem configBody_eq_configReport (s : State) : configBody s = configReport s := by
  have henable : s.enableByte = BitVec.ofNat 8 ((List.range 8).map fun h => if s.enabled h then 2 ^ h else 0).sum :=
    byte_of_bits ..
  have hrouting := routingByte_eq s.settings.routeLost s.settings.routeBack
  have hmode := modeByte_eq s.settings.modeA s.settings.modeB s.settings.merge s.settings.policy
  have hsched : s.sched.code = match s.sched with | .urgency => 0#8 | .index => 1#8 := by cases s.sched <;> rfl
  rw [configBody, henable, Settings.routingByte, hrouting, Settings.modeByte, hmode, hsched, be16_eq_twoBytes]
  simp only [configReport, decide_eq_true_eq]
  rfl

/-! ### The checks of CONFIGURE (R188) -/

theorem schedOfByte_unnamed {b : Byte} (h : ¬(b.toNat = 0 ∨ b.toNat = 1)) : schedOfByte b = none := by
  unfold schedOfByte
  split
  · next h0 => exact absurd (.inl h0) h
  · next h1 => exact absurd (.inr h1) h
  · rfl

theorem schedOfByte_named {b : Byte} (h : b.toNat = 0 ∨ b.toNat = 1) :
    schedOfByte b = some (if b.toNat = 0 then .urgency else .index) := by
  rcases h with h | h <;> simp [schedOfByte, h]

theorem unitOfByte_unnamed {b : Byte} (h : ¬(b.toNat = 1 ∨ b.toNat = 2 ∨ b.toNat = 4 ∨ b.toNat = 8)) :
    unitOfByte b = none := by
  unfold unitOfByte
  split
  · next h1 => exact absurd (.inl h1) h
  · next h2 => exact absurd (.inr (.inl h2)) h
  · next h4 => exact absurd (.inr (.inr (.inl h4))) h
  · next h8 => exact absurd (.inr (.inr (.inr h8))) h
  · rfl

theorem unitOfByte_named {b : Byte} (h : b.toNat = 1 ∨ b.toNat = 2 ∨ b.toNat = 4 ∨ b.toNat = 8) :
    unitOfByte b = some b.toNat := by
  rcases h with h | h | h | h <;> simp [unitOfByte, h]

/-- No bound context's highway is disabled by the enables. -/
def KeepsBound (e : Byte) (s : State) : Prop :=
  ∀ c r, (c, r) ∈ s.ctxs → r.id.hw < 8 → s.enabled r.id.hw = true → e.getLsbD r.id.hw = true

theorem disablesBound_eq_false_iff (e : Byte) (s : State) : disablesBound e s = false ↔ KeepsBound e s := by
  refine ⟨fun h c r hr hhw hen => disablesBound_eq_false h hr hhw hen, fun h => ?_⟩
  simp only [disablesBound, List.any_eq_false, List.mem_range, Bool.and_eq_true, not_and, Bool.not_eq_true']
  intro hw hhw ⟨hen, hbit⟩ hne
  obtain ⟨c, hc⟩ := List.exists_mem_of_ne_nil (s.boundOn hw) (by simpa using hne)
  obtain ⟨⟨c, r⟩, he, rfl⟩ := List.mem_map.1 hc
  obtain ⟨hr, hkey⟩ := List.mem_filter.1 he
  obtain rfl : r.id.hw = hw := by simpa using hkey
  exact absurd (h c r hr hhw hen) (by simp [hbit])

/-! ### The settings applied -/

theorem ofBits_extract_routing (w : Byte) (i : Nat) :
    Route.ofBits (w.extractLsb' i 2) = if w.toNat / 2 ^ i % 4 = 0 then .none else if w.toNat / 2 ^ i % 4 = 1 then .a
      else if w.toNat / 2 ^ i % 4 = 2 then .b else .both := by
  rw [Route.ofBits, BitVec.extractLsb'_toNat, Nat.shiftRight_eq_div_pow]
  split
  · next h => rw [if_pos h]
  · next h => rw [h]; rfl
  · next h => rw [h]; rfl
  · next h0 h1 h2 => rw [if_neg h0, if_neg h1, if_neg h2]

theorem configureCmd_refused_range {e routing modes sched unit : Byte} {s : State}
    (h : schedOfByte sched = none ∨ unitOfByte unit = none) :
    configureCmd e routing modes sched unit s = (s, refuse .range) := by
  rcases h with h | h
  · simp [configureCmd, h]
  · cases hs : schedOfByte sched <;> simp [configureCmd, h, hs]

theorem configureCmd_refused_inUse {e routing modes sched unit : Byte} {s : State} {mode : SchedMode} {n : Nat}
    (hsched : schedOfByte sched = some mode) (hunit : unitOfByte unit = some n) (hkeeps : ¬KeepsBound e s) :
    configureCmd e routing modes sched unit s = (s, refuse .inUse) := by
  have hdis : disablesBound e s = true := by
    rw [← disablesBound_eq_false_iff] at hkeeps
    simpa using hkeeps
  simp [configureCmd, hsched, hunit, hdis]

theorem tget_configured_sync {e : Byte} (routing modes : Byte) (mode : SchedMode) (n : Nat) {s : State} {h : Nat} (hh : h < 8) :
    tget h (configured e routing modes mode n s).sync = enabledAs e h (tget h s.sync) := by
  have := tget_enableHighways e (List.range 8) s h
  rwa [if_pos (List.mem_range.2 hh)] at this

/-- Settles O47. -/
theorem configureAndReadConfig : Obligations.ConfigureAndReadConfig := by
  intro e routing modes sched unit s w named route keepsBound
  refine ⟨?_, fun hn => ?_, fun hn hk => ?_, fun hn hk => ?_⟩
  · exact congrArg Host.Outcome.next (command_responds (by rw [readConfigCmd, configBody_eq_configReport]; rfl))
  · exact congrArg Host.Outcome.next (command_refuses (configureCmd_refused_range
      ((Classical.not_and_iff_not_or_not.1 hn).imp schedOfByte_unnamed unitOfByte_unnamed)))
  · exact congrArg Host.Outcome.next
      (command_refuses (configureCmd_refused_inUse (schedOfByte_named hn.1) (unitOfByte_named hn.2) hk))
  · refine ⟨_, congrArg Host.Outcome.next
      (command_responds (configBody_eq_configReport _ ▸ configureCmd_accepted (schedOfByte_named hn.1) (unitOfByte_named hn.2)
        ((disablesBound_eq_false_iff e w).2 hk))),
      fun h hh => tget_configured_sync _ _ _ _ hh, ?_, rfl, rfl, rfl, ?_⟩
    · exact congrArg₂ (fun lost back => ({
        routeLost := lost, routeBack := back
        modeA := if modes.getLsbD 0 then .pulsed else .latched, modeB := if modes.getLsbD 1 then .pulsed else .latched
        merge := modes.getLsbD 2, policy := if modes.getLsbD 3 then .keep else .overwrite } : Settings))
        (ofBits_extract_routing routing 0) (ofBits_extract_routing routing 2)
    · exact configured_frame ..

end Sys2Proof.FrameTiming


/-! PROOFS. The coefficient step: rounding half away from zero (R76); O9. -/

namespace Sys2Proof.EchoAdaptation

open Sys2Proof Sys2Proof.Machine Sys2Proof.TapSegments

/-! ### Rounding half away from zero -/

theorem natAbs_roundAway (n : Int) (d : Nat) : (roundAway n d).natAbs = (2 * n.natAbs + d) / (2 * d) := by
  unfold roundAway
  dsimp only
  split
  · rw [Int.natAbs_neg, Int.natAbs_natCast]
  · rw [Int.natAbs_natCast]

section
variable {d : Nat} (hd : 1 ≤ d)
include hd

/-- The rounded quotient is a magnitude under the numerator's sign (R76). -/
theorem roundAway_eq_sign_mul (n : Int) : roundAway n d = n.sign * ((2 * n.natAbs + d) / (2 * d) : Nat) := by
  rcases lt_trichotomy n 0 with hn | rfl | hn
  · rw [Int.sign_eq_neg_one_of_neg hn, neg_one_mul]
    exact if_pos hn
  · have hzero : (2 * Int.natAbs 0 + d) / (2 * d) = 0 := Nat.div_eq_of_lt (by simp; omega)
    rw [roundAway, hzero]
    rfl
  · rw [Int.sign_eq_one_of_pos hn, one_mul]
    exact if_neg (not_lt.2 hn.le)

theorem roundAway_neg (n : Int) : roundAway (-n) d = -roundAway n d := by
  rw [roundAway_eq_sign_mul hd, roundAway_eq_sign_mul hd, Int.sign_neg, Int.natAbs_neg, neg_mul]

theorem roundAway_pos {n : Int} (h : 0 < roundAway n d) : 0 < n := by
  rw [roundAway_eq_sign_mul hd] at h
  exact Int.sign_pos_iff.1 (pos_of_mul_pos_left h (Int.natCast_nonneg _))

theorem roundAway_neg_sign {n : Int} (h : roundAway n d < 0) : n < 0 := by
  refine neg_pos.1 (roundAway_pos hd ?_)
  rwa [roundAway_neg hd, neg_pos]

/-- No integer lies nearer to the quotient than the rounded one. -/
theorem roundAway_nearest (n : Int) : 2 * (n - roundAway n d * d).natAbs ≤ d := by
  have hdiv := Nat.div_add_mod (2 * n.natAbs + d) (2 * d)
  have hmod := Nat.mod_lt (2 * n.natAbs + d) (show 0 < 2 * d by omega)
  rw [mul_assoc, mul_comm d] at hdiv
  have hcast : (((2 * n.natAbs + d) / (2 * d) * d : Nat) : Int) = ((2 * n.natAbs + d) / (2 * d) : Nat) * d := by push_cast; rfl
  unfold roundAway
  dsimp only
  split
  · rw [neg_mul, ← hcast]
    omega
  · rw [← hcast]
    omega

end

/-- Settles O9. -/
theorem coefficientStep : Obligations.CoefficientStep := by
  intro mu d c g hd n
  refine ⟨roundAway n d, rfl, ?_, natAbs_roundAway n d, roundAway_pos hd, roundAway_neg_sign hd, roundAway_nearest hd n⟩
  rw [stepCoeff, mul_neg, roundAway_neg hd, ← sub_eq_add_neg]

end Sys2Proof.EchoAdaptation


/-! PROOFS. CONVERGENCE and EXPIRY (R81, R84, R85); O21. -/

namespace Sys2Proof.EchoAdaptation

open Sys2Proof Sys2Proof.Machine Sys2Proof.TapSegments Sys2Proof.FrameTiming

/-! ### Raising a notice on a record just written -/

theorem withKind_of_hasKind {k : Kind} {n : NoticeGroup} (h : hasKind n.kinds k = true) : withKind k n = n := by
  have hset : ∀ w : BitVec 9, hasKind w k = true → w ||| (1#9 <<< k.bit) = w := by cases k <;> decide
  rw [withKind, hset _ h]

/-- A notice raised on a record that has just been written: the kind enters the set, the lines owe its pulses, and nothing else
changes (R180, R187). -/
theorem raise_setRec (k : Kind) (c : Nat) (r : Record) (s : State) :
    (∃ a b, raise k c (s.setRec c r) =
      { s.setRec c { r with notes := withKind k r.notes } with lineA := a, lineB := b }) ∧
    pulses (!hasKind r.notes.kinds k) (routeOf r.notes.routing k) s (raise k c (s.setRec c r)) := by
  rcases raise_cases k c (s.setRec c r) with ⟨hnone, _⟩ | ⟨q, hq, hcase⟩
  · rw [rec?_setRec_same] at hnone
    cases hnone
  · obtain rfl : r = q := Option.some.inj ((rec?_setRec_same c r s).symm.trans hq)
    rcases hcase with ⟨hk, h⟩ | ⟨hk, h⟩ <;> rw [h, hk]
    · exact ⟨⟨s.lineA, s.lineB, by rw [withKind_of_hasKind hk]; rfl⟩, pulses_not_fresh s _⟩
    · rw [setRec_setRec]
      exact ⟨⟨_, _, rfl⟩, pulses_owe s _⟩

theorem withDetail_kinds (policy : DetailPolicy) (d : Detail) (n : NoticeGroup) : (withDetail policy d n).kinds = n.kinds := by
  unfold withDetail
  split
  · rfl
  · split <;> rfl

theorem withDetail_routing (policy : DetailPolicy) (d : Detail) (n : NoticeGroup) :
    (withDetail policy d n).routing = n.routing := by
  unfold withDetail
  split
  · rfl
  · split <;> rfl

/-! ### CONVERGENCE -/

theorem changeMain_acquire_track {s : State} {c : Nat} {r : Record} (hr : s.rec? c = some r) (hm : r.main = .acquire) (b : Bool) :
    changeMain .track c b s = s.setRec c { r with
      main := .track, conv := { r.conv with convergedOnce := true }
      notes := withDetail s.settings.policy (.main .acquire .track s.stamp) r.notes } := by
  have henter : enterMain .track r = { r with main := .track, conv := { r.conv with convergedOnce := true } } := by
    simp [enterMain, hm]
  rcases changeMain_cases .track c b s with ⟨hnone, _⟩ | ⟨q, hq, hcase⟩
  · rw [hr] at hnone
    cases hnone
  · obtain rfl : r = q := Option.some.inj (hr.symm.trans hq)
    rcases hcase with ⟨hm', _⟩ | ⟨_, h⟩
    · rw [hm] at hm'
      cases hm'
    · rw [h, if_pos (show MainState.track.searchable = true from rfl), writeDetail, modRec_eq (rec?_setRec_same ..), setRec_setRec,
        detailInto_eq_withDetail, henter, hm]
      rfl

theorem takeConvergence_acquire {s : State} {c : Nat} {r : Record} (hr : s.rec? c = some r) (hm : r.main = .acquire) :
    takeConvergence c s = raise .converged c (s.setRec c { r with
      main := .track, conv := { r.conv with convergedOnce := true }
      notes := withDetail s.settings.policy (.main .acquire .track s.stamp) r.notes }) := by
  simp only [takeConvergence, hr, hm, changeMain_acquire_track hr hm]

theorem takeConvergence_observe {s : State} {c : Nat} {r : Record} (hr : s.rec? c = some r) (hm : r.main = .observe) :
    takeConvergence c s = s.setRec c { r with conv := { r.conv with observeConverged := true } } := by
  simp only [takeConvergence, hr, hm]

/-! ### EXPIRY -/

section
variable {s : State} {c : Nat} {r : Record} (hr : s.rec? c = some r)
include hr

theorem takeExpiry_first (hm : r.main.searchable = true) (he : r.conv.expiry = 0) :
    takeExpiry c s = requestSearch c true (raise .slow c
      (s.setRec c { r with conv := { r.conv with deadline := 0, expiry := 1 } })) := by
  simp only [takeExpiry, hr, hm, he, if_true]

theorem takeExpiry_second (hm : r.main.searchable = true) (he : r.conv.expiry = 1) :
    takeExpiry c s = raise .slow c (s.setRec c { r with conv := { r.conv with deadline := 0, expiry := 2 } }) := by
  simp only [takeExpiry, hr, hm, he, if_true]

theorem takeExpiry_later (hm : r.main.searchable = true) (he : 2 ≤ r.conv.expiry) :
    takeExpiry c s = s.setRec c { r with conv := { r.conv with deadline := 0 } } := by
  obtain ⟨n, hn⟩ := Nat.exists_eq_add_of_le' he
  simp only [takeExpiry, hr, hm, hn, if_true]

theorem takeExpiry_of_not_searchable (hm : r.main.searchable = false) : takeExpiry c s = s := by
  simp [takeExpiry, hr, hm]

end

/-- A request of a search changes the records, the queue and the units alone. -/
theorem requestSearch_frame (c : Nat) (b : Bool) (s : State) :
    { requestSearch c b s with ctxs := s.ctxs, queue := s.queue, units := s.units } = s := by
  apply state_ext <;> simp

theorem requestSearch_onlyRecords {c : Nat} {b : Bool} {s t : State} (h : onlyRecords s t) : onlyRecords s (requestSearch c b t) := by
  have hframe := requestSearch_frame c b t
  generalize requestSearch c b t = u at hframe ⊢
  unfold onlyRecords at h ⊢
  rw [← hframe] at h
  exact h

/-- The event's row, taken when the event is due. -/
theorem takes_rowOf_of_mem {e : DueEvent} {s t : State} (h : e ∈ s.due)
    (ht : takeEvent e { s with due := s.due.erase e } = t) : takes (rowOf e) s t := by
  rw [← ht, ← takeDue_of_mem h]
  exact takes_rowOf e s

section
variable {s : State} {c : Nat} {r : Record} (hdue : DueEvent.expiry c ∈ s.due) (hr : s.rec? c = some r)
  (hm : r.main.searchable = true)
include hdue hr hm

/-- The first expiry: SLOW is raised and a search requested for the record so left (R84). -/
theorem expiry_first (he : r.conv.expiry = 0) :
    let r' := { r with conv := { r.conv with deadline := 0, expiry := 1 }, notes := withKind .slow r.notes }
    ∃ t, takes (.expiry c) s t ∧ t.due = s.due.erase (.expiry c) ∧ onlyRecords s t ∧
      pulses (!hasKind r.notes.kinds .slow) (routeOf r.notes.routing .slow) s t ∧
      requested c r' true { t with ctxs := tset c r' s.ctxs, queue := s.queue, units := s.units } t := by
  intro r'
  let w : State := { s with due := s.due.erase (.expiry c) }
  obtain ⟨⟨a, b, hv⟩, hpulses⟩ := raise_setRec .slow c { r with conv := { r.conv with deadline := 0, expiry := 1 } } w
  have hevent := takeExpiry_first (s := w) hr hm he
  rw [hv] at hevent hpulses
  refine ⟨_, takes_rowOf_of_mem hdue hevent, ?_, requestSearch_onlyRecords rfl, ?_, ?_⟩
  · rw [requestSearch_due]
    rfl
  · rw [pulses, requestSearch_lineA, requestSearch_lineB]
    exact hpulses
  · have hrequest := requested_requestSearch (s := { w.setRec c r' with lineA := a, lineB := b }) (rec?_setRec_same c r' w) hm true
    have hframe := requestSearch_frame c true { w.setRec c r' with lineA := a, lineB := b }
    exact hframe.symm ▸ hrequest

/-- The second expiry: SLOW is raised (R84). -/
theorem expiry_second (he : r.conv.expiry = 1) :
    ∃ t, takes (.expiry c) s t ∧ t.due = s.due.erase (.expiry c) ∧ onlyRecords s t ∧
      pulses (!hasKind r.notes.kinds .slow) (routeOf r.notes.routing .slow) s t ∧
      t.ctxs = tset c { r with conv := { r.conv with deadline := 0, expiry := 2 }, notes := withKind .slow r.notes } s.ctxs ∧
      t.queue = s.queue ∧ t.units = s.units := by
  let w : State := { s with due := s.due.erase (.expiry c) }
  obtain ⟨⟨a, b, hv⟩, hpulses⟩ := raise_setRec .slow c { r with conv := { r.conv with deadline := 0, expiry := 2 } } w
  have hevent := takeExpiry_second (s := w) hr hm he
  rw [hv] at hevent hpulses
  exact ⟨_, takes_rowOf_of_mem hdue hevent, rfl, rfl, hpulses, rfl, rfl, rfl⟩

end

/-- Convergence in ACQUIRE: the record goes to TRACK and CONVERGED is raised (R81). -/
theorem convergence_acquire {s : State} {c : Nat} {r : Record} (hdue : DueEvent.convergence c ∈ s.due) (hr : s.rec? c = some r)
    (hm : r.main = .acquire) :
    ∃ t, takes (.convergence c) s t ∧
      t.rec? c = some { r with
        main := .track
        conv := { r.conv with convergedOnce := true }
        notes := withKind .converged (withDetail s.settings.policy (.main .acquire .track s.stamp) r.notes) } ∧
      pulses (!hasKind r.notes.kinds .converged) (routeOf r.notes.routing .converged) s t ∧
      t.due = s.due.erase (.convergence c) ∧ othersKept c s t ∧ t.queue = s.queue ∧ t.units = s.units ∧ onlyRecords s t := by
  let w : State := { s with due := s.due.erase (.convergence c) }
  let detailed := withDetail s.settings.policy (.main .acquire .track s.stamp) r.notes
  obtain ⟨⟨a, b, hv⟩, hpulses⟩ := raise_setRec .converged c
    { r with main := .track, conv := { r.conv with convergedOnce := true }, notes := detailed } w
  have hevent := takeConvergence_acquire (s := w) hr hm
  rw [hv, withDetail_kinds, withDetail_routing] at hpulses
  exact ⟨_, takes_rowOf_of_mem hdue (hevent.trans hv), rec?_setRec_same _ _ w, hpulses, rfl,
    fun d hd => rec?_setRec_other hd _ w, rfl, rfl, rfl⟩

/-- Settles O21. -/
theorem convergenceAndExpiryEvents : Obligations.ConvergenceAndExpiryEvents := by
  refine ⟨fun s c r hdue hr => ⟨convergence_acquire hdue hr, fun hm => ?_⟩, fun s c r hdue hr hm => ?_, fun s c r hdue hr hm => ?_⟩
  · exact takes_rowOf_of_mem hdue (takeConvergence_observe (s := { s with due := s.due.erase (.convergence c) }) hr hm)
  · have hm : r.main.searchable = true := by rcases hm with hm | hm <;> rw [hm] <;> rfl
    obtain he | he | he : r.conv.expiry = 0 ∨ r.conv.expiry = 1 ∨ 2 ≤ r.conv.expiry := by omega
    · obtain ⟨t, htakes, htdue, honly, hpulses, hrequested⟩ := expiry_first hdue hr hm he
      exact ⟨t, htakes, htdue, honly, fun _ => hpulses, fun _ => hrequested, fun h => by omega, fun h => by omega⟩
    · obtain ⟨t, htakes, htdue, honly, hpulses, hrecord⟩ := expiry_second hdue hr hm he
      exact ⟨t, htakes, htdue, honly, fun _ => hpulses, fun h => by omega, fun _ => hrecord, fun h => by omega⟩
    · have hevent := takeExpiry_later (s := { s with due := s.due.erase (.expiry c) }) hr hm he
      exact ⟨_, takes_rowOf_of_mem hdue hevent, rfl, rfl, fun h => by omega, fun h => by omega, fun h => by omega, fun _ => rfl⟩
  · exact takes_rowOf_of_mem hdue (takeExpiry_of_not_searchable (s := { s with due := s.due.erase (.expiry c) }) hr
      ((searchable_eq_false_iff _).2 hm.symm))

end Sys2Proof.EchoAdaptation


/-! PROOFS. The measures of a worked block end: what it makes due, the convergence group (R79 to R84) and the divergence group (R129 to
R136); O13, O14. -/

namespace Sys2Proof.EchoAdaptation

open Sys2Proof Sys2Proof.Machine Sys2Proof.TapSegments Sys2Proof.FrameTiming

/-! ### The events of one context -/

/-- The context whose event it is; none for the advance of the stamp. -/
def eventContext : DueEvent → Option Nat
  | .convergence c => some c
  | .expiry c => some c
  | .cut c => some c
  | .recovery c => some c
  | .level c _ => some c
  | .noiseFloorRise c => some c
  | .stampAdvance => none
  | .windowEnd c => some c
  | .toneEntry c => some c
  | .release c => some c

theorem eventContext_of_mem_dueEvents {p : Profile} {h : List Sample} {c : Nat} {r : Record} {e : DueEvent}
    (he : e ∈ dueEvents p h c r) : eventContext e = some c := by
  unfold dueEvents at he
  split at he
  · cases he
  · simp only [List.mem_append, List.mem_ite_nil_right, List.mem_singleton] at he
    obtain ((((((⟨_, rfl⟩ | ⟨_, rfl⟩) | ⟨_, rfl⟩) | ⟨_, rfl⟩) | ⟨_, rfl⟩) | ⟨_, rfl⟩) | ⟨_, rfl⟩) | ⟨_, rfl⟩ := he <;> rfl

/-- A boundary makes an event of a context due exactly when the block end of its record does. -/
theorem mem_blockBoundary_due {s : State} (hs : rising s.ctxs = true) {c : Nat} {r : Record} (hr : s.rec? c = some r)
    {e : DueEvent} (he : eventContext e = some c) :
    e ∈ (blockBoundary s).due ↔ e ∈ dueEvents (s.profileOf r) (s.histOf r) c r := by
  have hstamp : e ∉ if s.stampDue = true then [DueEvent.stampAdvance] else [] := by
    split
    · rw [List.mem_singleton]
      rintro rfl
      cases he
    · exact List.not_mem_nil
  rw [blockBoundary_due, List.mem_append, or_iff_left hstamp, List.mem_flatMap]
  constructor
  · rintro ⟨⟨d, q⟩, hmem, hevent⟩
    obtain rfl : d = c := Option.some.inj ((eventContext_of_mem_dueEvents hevent).symm.trans he)
    obtain rfl : q = r := Option.some.inj ((tget_of_mem hs hmem).symm.trans hr)
    exact hevent
  · exact fun hevent => ⟨(c, r), mem_of_tget hr, hevent⟩

section
variable {p : Profile} {h : List Sample} {c : Nat} {r : Record} (hw : workedBlock r = true)
include hw

theorem expiry_mem_dueEvents : DueEvent.expiry c ∈ dueEvents p h c r ↔ (viewBlock p h r).expires r = true := by
  simp [dueEvents, hw]

theorem convergence_mem_dueEvents : DueEvent.convergence c ∈ dueEvents p h c r ↔
    (viewBlock p h r).converges r = true ∧ (viewBlock p h r).cuts r = false ∧ r.main ≠ .track := by
  simp [dueEvents, hw, and_assoc]

theorem cut_mem_dueEvents : DueEvent.cut c ∈ dueEvents p h c r ↔ (viewBlock p h r).cuts r = true := by
  simp [dueEvents, hw]

theorem recovery_mem_dueEvents : DueEvent.recovery c ∈ dueEvents p h c r ↔
    quietBlock (viewBlock p h r).gate.state r = true ∧ (divEnd (viewBlock p h r) r).quiet = 128 ∧ p.recovery.recovers = true := by
  simp [dueEvents, hw, workedEnd, and_assoc]

end

/-! ### Blocks that qualify (R72) -/

theorem searchable_iff (m : MainState) : m.searchable = true ↔ m = .observe ∨ m = .acquire ∨ m = .track := by
  cases m <;> simp [MainState.searchable]

theorem eligible_iff (g : GateState) (r : Record) : eligible g r = true ↔
    workedBlock r = true ∧ (r.main = .observe ∨ r.main = .acquire ∨ r.main = .track) ∧ g = .far ∧ r.tone.sub ≠ .bypass := by
  simp [eligible, searchable_iff, and_assoc]

theorem eligible_of_worked {r : Record} (hw : workedBlock r = true) (g : GateState) : eligible g r =
    decide ((r.main = .observe ∨ r.main = .acquire ∨ r.main = .track) ∧ g = .far ∧ r.tone.sub ≠ .bypass) := by
  rw [Bool.eq_iff_iff, eligible_iff, decide_eq_true_iff, and_iff_right hw]

/-! ### The convergence group (R79 to R84) -/

theorem goodBlock_iff (es ee ef : Nat) : goodBlock es ee ef = true ↔ 4 * ee ≤ es ∨ es * 10000 ≤ ef := by
  simp [goodBlock]

theorem cutsAt_iff (count es ee : Nat) : cutsAt count es ee = true ↔ es < ee ∧ 256 ≤ count + 8 := by
  simp [cutsAt]

section
variable (v : BlockView) (r : Record)

theorem expires_iff : v.expires r = true ↔
    v.eligible = true ∧ r.main = .acquire ∧ deadlineOf r.segCount ≤ r.conv.deadline + 1 := by
  simp [BlockView.expires, and_assoc]

theorem cuts_iff : v.cuts r = true ↔ v.eligible = true ∧ v.es < v.ee ∧ 256 ≤ r.div.count + 8 := by
  simp [BlockView.cuts, cutsAt_iff]

theorem converges_iff : v.converges r = true ↔
    v.eligible = true ∧ (4 * v.ee ≤ v.es ∨ v.es * 10000 ≤ v.ef) ∧ r.conv.run = 31 := by
  simp [BlockView.converges, BlockView.good, goodBlock_iff, and_assoc]

theorem convEnd_run : (convEnd v r).run = if v.eligible = true then
    (if 4 * v.ee ≤ v.es ∨ v.es * 10000 ≤ v.ef then min 32 (r.conv.run + 1) else 0) else r.conv.run := by
  by_cases he : v.eligible = true <;> simp [convEnd, BlockView.good, he, goodBlock_iff]

theorem convEnd_deadline : (convEnd v r).deadline =
    if v.eligible = true ∧ r.main = .acquire ∧ ¬v.expires r = true then r.conv.deadline + 1 else r.conv.deadline := by
  simp [convEnd, and_assoc]

theorem convEnd_eq : convEnd v r = { r.conv with run := (convEnd v r).run, deadline := (convEnd v r).deadline } := rfl

end

/-- Settles O13. -/
theorem convergenceMeasures : Obligations.ConvergenceMeasures := by
  intro s t c r hphase hrise ht hr hst hworked power es ee ef
  obtain rfl := Host.Outcome.next.inj ((takes_blockBoundary hphase).symm.trans ht)
  have hw : workedBlock r = true := by simp [workedBlock, hst, hworked]
  obtain ⟨kinds, hq⟩ := rec?_blockBoundary hr
  rw [boundaryRecord_of_worked hst hworked] at hq
  refine ⟨_, hq, ?_⟩
  intro qualifies good deadline run expires
  set v := viewBlock ((settle s).profileOf r) ((settle s).histOf r) r with hv
  have helig : v.eligible = true ↔ qualifies := by
    rw [hv, viewBlock, eligible_of_worked hw, decide_eq_true_iff]
    rfl
  have hes : v.es = es := energy_eq _
  have hee : v.ee = ee := energy_eq _
  have hef : v.ef = ef := energy_eq _
  have hexpires : v.expires r = true ↔ expires := by
    rw [expires_iff, helig]
    rfl
  refine ⟨?_, ?_, ?_, ?_⟩
  · rw [← hes, ← hee, ← hef]
    rfl
  · have hrun : (convEnd v r).run = run := by
      rw [convEnd_run]
      simp only [helig, hes, hee, hef]
      rfl
    have hdeadline : (convEnd v r).deadline =
        if qualifies ∧ r.main = .acquire ∧ ¬expires then r.conv.deadline + 1 else r.conv.deadline := by
      rw [convEnd_deadline]
      simp only [helig, hexpires]
    exact (convEnd_eq v r).trans (by rw [hrun, hdeadline])
  · rw [mem_blockBoundary_due hrise hr rfl, expiry_mem_dueEvents hw, hexpires]
  · rw [mem_blockBoundary_due hrise hr rfl, convergence_mem_dueEvents hw, converges_iff, ← Bool.not_eq_true, cuts_iff, ← hv, helig,
      hes, hee, hef]
    have hmain : qualifies → (r.main ≠ .track ↔ r.main = .observe ∨ r.main = .acquire) := by
      rintro ⟨hm, _⟩
      rcases hm with hm | hm | hm <;> simp [hm]
    constructor
    · rintro ⟨⟨hqual, hgood, hrun⟩, hcut, htrack⟩
      exact ⟨hqual, hgood, hrun, (hmain hqual).1 htrack, fun hdiv => hcut ⟨hqual, hdiv⟩⟩
    · rintro ⟨hqual, hgood, hrun, htrack, hcut⟩
      exact ⟨⟨hqual, hgood, hrun⟩, fun hdiv => hcut hdiv.2, (hmain hqual).2 htrack⟩

/-! ### Notices raised by a boundary -/

theorem hasKind_withKind (k : Kind) (n : NoticeGroup) : hasKind (withKind k n).kinds k = true := by
  have hset : ∀ w : BitVec 9, hasKind (w ||| (1#9 <<< k.bit)) k = true := by cases k <;> decide
  exact hset n.kinds

theorem withKind_withKind (k : Kind) (n : NoticeGroup) : withKind k (withKind k n) = withKind k n :=
  withKind_of_hasKind (hasKind_withKind k n)

/-- The notices that a raised kind leaves (R180). -/
theorem raisedNotes_eq (k : Kind) (n : NoticeGroup) :
    { n with kinds := if hasKind n.kinds k then n.kinds else addKind n.kinds k } = withKind k n := by
  by_cases hk : hasKind n.kinds k = true
  · rw [if_pos hk, withKind_of_hasKind hk]
  · rw [if_neg hk]
    rfl

/-- Raised for several contexts, a kind enters the sets of their records and of no other (R180). -/
theorem rec?_raises_eq (k : Kind) (l : List Nat) (s : State) (c : Nat) : (raises k l s).rec? c =
    (s.rec? c).map fun r => { r with notes := if c ∈ l then withKind k r.notes else r.notes } := by
  induction l generalizing s with
  | nil => simp [raises]
  | cons d l ih =>
    rw [raises, List.foldl_cons, ← raises, ih, rec?_raise]
    by_cases hc : c = d
    · subst hc
      cases hr : s.rec? c with
      | none => simp
      | some r =>
        simp only [if_true, Option.map_some, raisedNotes_eq, withKind_withKind, ite_self, List.mem_cons, true_or]
    · simp [hc]

/-- The contexts that enter WARNED are those whose band is SOUND before the boundary and WARNED after it (R131). -/
theorem mem_warnedNow {s : State} (hs : rising s.ctxs = true) {c : Nat} {r : Record} (hr : s.rec? c = some r) :
    c ∈ s.warnedNow ↔ r.div.band = .sound ∧ (s.boundaryRecord s.selection c r).div.band = .warned := by
  have hentry : ∀ e ∈ s.ctxs, e.1 = c → e = (c, r) := by
    rintro ⟨d, q⟩ he rfl
    rw [Option.some.inj ((tget_of_mem hs he).symm.trans hr)]
  simp only [State.warnedNow, List.mem_map, List.mem_filter]
  constructor
  · rintro ⟨e, ⟨he, henters⟩, hc⟩
    obtain rfl := hentry e he hc
    rw [entersWarned_iff s s.selection c r] at henters
    simpa using henters
  · intro hband
    refine ⟨(c, r), ⟨mem_of_tget hr, ?_⟩, rfl⟩
    rw [entersWarned_iff s s.selection c r]
    simpa using hband

/-- The record of a context after a boundary, its notices included. -/
theorem rec?_blockBoundary_eq {s : State} (hs : rising s.ctxs = true) {c : Nat} {r : Record} (hr : s.rec? c = some r) :
    let q := s.boundaryRecord s.selection c r
    (blockBoundary s).rec? c = some { q with
      notes := if r.div.band = .sound ∧ q.div.band = .warned then withKind .warned r.notes else r.notes } := by
  intro q
  have hnotes : q.notes = r.notes := recordEnd_notes ..
  rw [blockBoundary_eq_raises, rec?_raises_eq, rec?_measured, hr, Option.map_some, Option.map_some]
  simp only [mem_warnedNow hs hr]
  rw [← hnotes]

/-! ### The divergence group (R129 to R136) -/

theorem divFits_iff (r : Record) : divFits r = true ↔ r.div.count ≤ 256 ∧ r.div.band = bandOf r.div.count ∧ r.div.quiet ≤ 128 ∧
    (r.div.count ≠ 256 ∨ r.main = .cut ∨ r.main = .held) := by
  simp [divFits, and_assoc, or_assoc]

theorem bandOf_eq (n : Nat) : bandOf n = if n ≤ 95 then .sound else if n ≤ 127 then .warned else .suspect := by
  unfold bandOf
  have h96 : n < 96 ↔ n ≤ 95 := Nat.lt_succ_iff
  have h128 : n < 128 ↔ n ≤ 127 := Nat.lt_succ_iff
  simp only [h96, h128]

theorem quietBlock_iff (g : GateState) (r : Record) : quietBlock g r = true ↔ r.main = .cut ∧ g = .idle := by
  simp [quietBlock]

theorem recovers_iff (m : RecoveryMode) : m.recovers = true ↔ m = .auto ∨ m = .holdAfter := by
  cases m <;> simp [RecoveryMode.recovers]

section
variable (v : BlockView) (r : Record)

theorem divEnd_count : (divEnd v r).count = if v.eligible = true ∧ ¬v.cuts r = true then
      (if v.es < v.ee then r.div.count + 8 else if 2 * v.ee ≤ v.es then r.div.count - 1 else r.div.count)
    else r.div.count := by
  simp [divEnd, divAfter]

theorem divEnd_quiet : (divEnd v r).quiet =
    if r.main = .cut ∧ v.gate.state = .idle then min 128 (r.div.quiet + 1) else r.div.quiet := by
  simp [divEnd, quietBlock_iff]

/-- The band follows the count (R129). -/
theorem divEnd_band {r : Record} (hfits : divFits r = true) : (divEnd v r).band = bandOf (divEnd v r).count := by
  obtain ⟨_, hband, _⟩ := (divFits_iff r).1 hfits
  unfold divEnd
  split
  · rfl
  · exact hband

theorem divEnd_count_le {r : Record} (hfits : divFits r = true) : (divEnd v r).count ≤ 256 := by
  obtain ⟨hcount, _⟩ := (divFits_iff r).1 hfits
  rw [divEnd_count]
  split
  · next hcounted =>
    have hcut : ¬(v.es < v.ee ∧ 256 ≤ r.div.count + 8) := fun h => hcounted.2 ((cuts_iff v r).2 ⟨hcounted.1, h⟩)
    split
    · omega
    · split <;> omega
  · exact hcount

end

/-- Settles O14. -/
theorem divergenceJudgment : Obligations.DivergenceJudgment := by
  intro s t c r hphase hrise ht hr hst hworked hfits power es ee
  obtain rfl := Host.Outcome.next.inj ((takes_blockBoundary hphase).symm.trans ht)
  have hw : workedBlock r = true := by simp [workedBlock, hst, hworked]
  have hq := rec?_blockBoundary_eq hrise hr
  rw [boundaryRecord_of_worked hst hworked] at hq
  refine ⟨_, hq, ?_⟩
  intro counted cut count quiet
  set v := viewBlock ((settle s).profileOf r) ((settle s).histOf r) r with hv
  have helig : v.eligible = true ↔ counted := by
    rw [hv, viewBlock, eligible_of_worked hw, decide_eq_true_iff]
    rfl
  have hes : v.es = es := energy_eq _
  have hee : v.ee = ee := energy_eq _
  have hcut : v.cuts r = true ↔ cut := by
    rw [cuts_iff, helig, hes, hee]
  have hcount : (divEnd v r).count = count := by
    rw [divEnd_count]
    simp only [helig, hcut, hes, hee]
    rfl
  refine ⟨hcount, hcount ▸ divEnd_count_le v hfits, ?_, divEnd_quiet v r, ?_, ?_, ?_⟩
  · refine (divEnd_band v hfits).trans ?_
    rw [hcount, bandOf_eq]
  · exact apply_ite NoticeGroup.kinds ..
  · rw [mem_blockBoundary_due hrise hr rfl, cut_mem_dueEvents hw, hcut]
  · rw [mem_blockBoundary_due hrise hr rfl, recovery_mem_dueEvents hw, quietBlock_iff, recovers_iff, ← hv, divEnd_quiet]
    refine and_congr_right fun hquiet => and_congr_left fun _ => ?_
    rw [if_pos hquiet]
    omega

end Sys2Proof.EchoAdaptation


/-! PROOFS. The scheduler: the order of the walk (R90, R91), the walk within its budget (R88, R89), skip counts and the rotation
pointer (R91, R92); O17. -/

namespace Sys2Proof.EchoAdaptation

open Sys2Proof Sys2Proof.Machine Sys2Proof.TapSegments Sys2Proof.FrameTiming

/-! ### The order of the walk (R90, R91) -/

theorem urgencyClass_eq (r : Record) : urgencyClass r = if 16 ≤ r.skip then 0
    else if r.main = .track ∧ (r.div.band = .sound ∨ r.div.band = .warned) then 2 else 1 := by
  unfold urgencyClass
  cases r.div.band <;> simp

theorem urgencyClass_cases (r : Record) : urgencyClass r = 0 ∨ urgencyClass r = 1 ∨ urgencyClass r = 2 := by
  unfold urgencyClass
  split
  · exact .inl rfl
  · split
    · exact .inr (.inr rfl)
    · exact .inr (.inl rfl)

/-- Entry `e` comes before entry `d` in the walk. -/
def WalksBefore (mode : SchedMode) (pointer : Nat) (e d : Nat × Record) : Prop :=
  match mode with
  | .urgency => urgencyClass e.2 < urgencyClass d.2 ∨ (urgencyClass e.2 = urgencyClass d.2 ∧ e.1 < d.1)
  | .index => (pointer ≤ e.1 ∧ d.1 < pointer) ∨ ((pointer ≤ e.1 ↔ pointer ≤ d.1) ∧ e.1 < d.1)

theorem walksBefore_irrefl (mode : SchedMode) (pointer : Nat) (e : Nat × Record) : ¬WalksBefore mode pointer e e := by
  cases mode <;> simp only [WalksBefore] <;> omega

theorem mem_walkOrder (mode : SchedMode) (pointer : Nat) (cs : List (Nat × Record)) (e : Nat × Record) :
    e ∈ walkOrder mode pointer cs ↔ e ∈ cs := by
  cases mode with
  | urgency =>
    simp only [walkOrder, List.mem_append, List.mem_filter, decide_eq_true_eq, ← and_or_left, and_iff_left_iff_imp, or_assoc]
    exact fun _ => urgencyClass_cases e.2
  | index =>
    simp only [walkOrder, List.mem_append, List.mem_filter, decide_eq_true_eq, ← and_or_left, and_iff_left_iff_imp]
    exact fun _ => le_or_gt pointer e.1

section
variable {cs : List (Nat × Record)} (hcs : rising cs = true)
include hcs

theorem pairwise_walkOrder (mode : SchedMode) (pointer : Nat) : (walkOrder mode pointer cs).Pairwise (WalksBefore mode pointer) := by
  have hpart : ∀ p : Nat × Record → Bool, (cs.filter p).Pairwise fun e d => (p e = true ∧ p d = true) ∧ e.1 < d.1 := fun p =>
    ((pairwise_of_rising hcs).filter p).imp_of_mem fun he hd hlt =>
      ⟨⟨(List.mem_filter.1 he).2, (List.mem_filter.1 hd).2⟩, hlt⟩
  cases mode with
  | urgency =>
    have hclass : ∀ n, (cs.filter fun e => decide (urgencyClass e.2 = n)).Pairwise (WalksBefore .urgency pointer) := fun n =>
      (hpart _).imp fun {e d} ⟨⟨he, hd⟩, hlt⟩ => .inr ⟨(of_decide_eq_true he).trans (of_decide_eq_true hd).symm, hlt⟩
    have hclasses : ∀ {n m : Nat} {e d : Nat × Record}, n < m → e ∈ cs.filter (fun e => decide (urgencyClass e.2 = n)) →
        d ∈ cs.filter (fun e => decide (urgencyClass e.2 = m)) → WalksBefore .urgency pointer e d := by
      intro n m e d hlt he hd
      have he := of_decide_eq_true (List.mem_filter.1 he).2
      have hd := of_decide_eq_true (List.mem_filter.1 hd).2
      exact .inl (by omega)
    refine List.pairwise_append.2 ⟨List.pairwise_append.2 ⟨hclass 0, hclass 1, fun e he d hd => hclasses (by omega) he hd⟩, hclass 2,
      fun e he d hd => ?_⟩
    rcases List.mem_append.1 he with he | he
    · exact hclasses (by omega) he hd
    · exact hclasses (by omega) he hd
  | index =>
    refine List.pairwise_append.2 ⟨(hpart _).imp ?_, (hpart _).imp ?_, fun e he d hd => ?_⟩
    · rintro e d ⟨⟨he, hd⟩, hlt⟩
      exact .inr ⟨iff_of_true (of_decide_eq_true he) (of_decide_eq_true hd), hlt⟩
    · rintro e d ⟨⟨he, hd⟩, hlt⟩
      exact .inr ⟨iff_of_false (not_le.2 (of_decide_eq_true he)) (not_le.2 (of_decide_eq_true hd)), hlt⟩
    · exact .inl ⟨of_decide_eq_true (List.mem_filter.1 he).2, of_decide_eq_true (List.mem_filter.1 hd).2⟩

theorem walkOrder_perm (mode : SchedMode) (pointer : Nat) : (walkOrder mode pointer cs).Perm cs := by
  have horder : (walkOrder mode pointer cs).Nodup := by
    refine (pairwise_walkOrder hcs mode pointer).imp ?_
    rintro e d hbefore rfl
    exact walksBefore_irrefl mode pointer e hbefore
  have hrise : cs.Nodup := by
    refine (pairwise_of_rising hcs).imp ?_
    rintro e d hlt rfl
    exact Nat.lt_irrefl e.1 hlt
  exact (List.perm_ext_iff_of_nodup horder hrise).2 (mem_walkOrder mode pointer cs)

end

theorem of_pairwise_split {α : Type} {R : α → α → Prop} {l₁ l₂ l₃ : List α} {e d : α}
    (h : (l₁ ++ e :: l₂ ++ d :: l₃).Pairwise R) : R e d :=
  (List.pairwise_append.1 h).2.2 e (by simp) d (by simp)

/-! ### The walk (R88, R89) -/

/-- What the records of some contexts cost (R88). -/
def walkCost (l : List (Nat × Record)) : Nat := (l.map fun e => 16 * e.2.segCount).sum

/-- The walk, with the records of the contexts that it selects. -/
def taken : Nat → List (Nat × Record) → List (Nat × Record)
  | _, [] => []
  | budget, e :: l => if e.2.tapCount ≤ budget then e :: taken (budget - e.2.tapCount) l else taken budget l

theorem walk_eq (budget : Nat) (l : List (Nat × Record)) : walk budget l = (taken budget l).map (·.1) := by
  induction l generalizing budget with
  | nil => rfl
  | cons e l ih =>
    rw [walk, taken]
    split
    · rw [ih, List.map_cons]
    · exact ih budget

theorem taken_sublist (budget : Nat) (l : List (Nat × Record)) : (taken budget l).Sublist l := by
  induction l generalizing budget with
  | nil => exact .slnil
  | cons e l ih =>
    rw [taken]
    split
    · exact (ih _).cons_cons e
    · exact (ih _).cons e

theorem walkCost_cons (e : Nat × Record) (l : List (Nat × Record)) : walkCost (e :: l) = e.2.tapCount + walkCost l := rfl

theorem walkCost_taken_le (budget : Nat) (l : List (Nat × Record)) : walkCost (taken budget l) ≤ budget := by
  induction l generalizing budget with
  | nil => exact Nat.zero_le _
  | cons e l ih =>
    rw [taken]
    split
    · have := ih (budget - e.2.tapCount)
      rw [walkCost_cons]
      omega
    · exact ih budget

/-- The walk of two parts, one behind the other: the second has what the first leaves of the budget. -/
theorem taken_append (budget : Nat) (l₁ l₂ : List (Nat × Record)) :
    taken budget (l₁ ++ l₂) = taken budget l₁ ++ taken (budget - walkCost (taken budget l₁)) l₂ := by
  induction l₁ generalizing budget with
  | nil => rfl
  | cons e l ih =>
    rw [List.cons_append, taken, taken]
    split
    · rw [ih, walkCost_cons, List.cons_append, Nat.sub_add_eq]
    · exact ih budget

/-- All that together costs no more than the budget is taken. -/
theorem taken_of_walkCost_le {budget : Nat} {l : List (Nat × Record)} (h : walkCost l ≤ budget) : taken budget l = l := by
  induction l generalizing budget with
  | nil => rfl
  | cons e l ih =>
    rw [walkCost_cons] at h
    rw [taken, if_pos (by omega), ih (by omega)]

theorem walkCost_perm {l m : List (Nat × Record)} (h : l.Perm m) : walkCost l = walkCost m := (h.map _).sum_nat

/-! ### The contexts selected -/

/-- The entries of a list whose numbers stand among those of a sublist are the sublist, where no number stands twice. -/
theorem filter_mem_keys {α : Type} {t l : List (Nat × α)} (ht : t.Sublist l) (hl : (l.map (·.1)).Nodup) :
    (l.filter fun e => decide (e.1 ∈ t.map (·.1))) = t := by
  induction ht with
  | slnil => rfl
  | @cons t l e ht ih =>
    obtain ⟨he, hl⟩ := List.nodup_cons.1 hl
    rw [List.filter_cons_of_neg (by simpa using fun h => he ((ht.map _).subset h)), ih hl]
  | @cons_cons t l e ht ih =>
    obtain ⟨he, hl⟩ := List.nodup_cons.1 hl
    rw [List.filter_cons_of_pos (by simp)]
    congr 1
    refine (List.filter_congr fun d hd => ?_).trans (ih hl)
    have hne : d.1 ≠ e.1 := fun h => he (List.mem_map.2 ⟨d, hd, h⟩)
    simp [hne]

/-- Of the first part of the walk's order, what the walk selects is what it takes of that part alone. -/
theorem filter_mem_walk_append {budget : Nat} {l₁ l₂ : List (Nat × Record)} (hnodup : ((l₁ ++ l₂).map (·.1)).Nodup) :
    (l₁.filter fun e => decide (e.1 ∈ walk budget (l₁ ++ l₂))) = taken budget l₁ := by
  rw [List.map_append] at hnodup
  refine (List.filter_congr fun d hd => ?_).trans (filter_mem_keys (taken_sublist budget l₁) hnodup.of_append_left)
  have hd : d.1 ∉ (taken (budget - walkCost (taken budget l₁)) l₂).map (·.1) := fun h =>
    (List.disjoint_of_nodup_append hnodup) (List.mem_map_of_mem hd) (((taken_sublist _ l₂).map _).subset h)
  rw [walk_eq, taken_append, List.map_append]
  simp only [List.mem_append, hd, or_false]

/-- The walk selects a context exactly when its cost and the costs selected before it stay within the budget (R89). -/
theorem mem_walk_iff {budget : Nat} {l₁ l₂ : List (Nat × Record)} {e : Nat × Record}
    (hnodup : ((l₁ ++ e :: l₂).map (·.1)).Nodup) :
    e.1 ∈ walk budget (l₁ ++ e :: l₂) ↔ walkCost (taken budget l₁) + e.2.tapCount ≤ budget := by
  have hle := walkCost_taken_le budget l₁
  rw [List.map_append, List.map_cons] at hnodup
  obtain ⟨_, htail, hdisj⟩ := List.nodup_append.1 hnodup
  have hbefore : e.1 ∉ (taken budget l₁).map (·.1) := fun h =>
    hdisj _ (((taken_sublist _ l₁).map _).subset h) _ (List.mem_cons_self ..) rfl
  have hbehind : ∀ b, e.1 ∉ (taken b l₂).map (·.1) := fun b h =>
    (List.nodup_cons.1 htail).1 (((taken_sublist _ l₂).map _).subset h)
  rw [walk_eq, taken_append, List.map_append, List.mem_append, or_iff_right hbefore, taken]
  split
  · next hfits => exact iff_of_true (by simp) (by omega)
  · next hfits => exact iff_of_false (hbehind _) (by omega)

/-! ### The selection of a boundary -/

theorem rising_filter {α : Type} (p : Nat × α → Bool) {m : List (Nat × α)} (hm : rising m = true) : rising (m.filter p) = true := by
  induction m with
  | nil => rfl
  | cons e m ih =>
    obtain ⟨hlt, hm⟩ := rising_cons.1 hm
    rw [List.filter_cons]
    split
    · exact rising_cons.2 ⟨fun d hd => hlt d (List.mem_filter.1 hd).1, ih hm⟩
    · exact ih hm

theorem nodup_keys_of_rising {α : Type} {m : List (Nat × α)} (hm : rising m = true) : (m.map (·.1)).Nodup :=
  List.pairwise_map.2 ((pairwise_of_rising hm).imp fun hlt => Nat.ne_of_lt hlt)

theorem rising_candidates {s : State} (hs : rising s.ctxs = true) : rising s.candidates = true := rising_filter _ hs

theorem mem_candidates {s : State} {c : Nat} {r : Record} (hr : s.rec? c = some r) :
    (c, r) ∈ s.candidates ↔ eligible (s.gateNow r) r = true :=
  List.mem_filter.trans (and_iff_right (mem_of_tget hr))

/-- The order in which the walk of a boundary considers its candidates. -/
def boundaryOrder (s : State) : List (Nat × Record) := walkOrder s.sched s.pointer s.candidates

theorem selection_eq (s : State) : s.selection = (taken 49152 (boundaryOrder s)).map (·.1) := walk_eq ..

theorem boundaryOrder_perm {s : State} (hs : rising s.ctxs = true) : (boundaryOrder s).Perm s.candidates :=
  walkOrder_perm (rising_candidates hs) ..

theorem nodup_boundaryOrder {s : State} (hs : rising s.ctxs = true) : ((boundaryOrder s).map (·.1)).Nodup :=
  ((boundaryOrder_perm hs).map _).nodup_iff.2 (nodup_keys_of_rising (rising_candidates hs))

/-- Of the first part of its order, the boundary selects what the walk takes of that part. -/
theorem filter_mem_selection {s : State} (hs : rising s.ctxs = true) {l₁ l₂ : List (Nat × Record)}
    (h : boundaryOrder s = l₁ ++ l₂) :
    (l₁.filter fun e => decide (e.1 ∈ s.selection)) = taken 49152 l₁ := by
  have hselection : s.selection = walk 49152 (l₁ ++ l₂) := congrArg (walk 49152) h
  rw [hselection]
  exact filter_mem_walk_append (h ▸ nodup_boundaryOrder hs)

theorem blockBoundary_pointer (s : State) : (blockBoundary s).pointer = pointerAfter s.sched s.pointer s.selection :=
  foldl_keeps (fun t : State => t.pointer) _ (by simp) _ _

/-- A boundary's record qualifies as its candidate by the gate that the boundary leaves in it (R72, R87). -/
theorem eligible_iff_boundaryRecord (s : State) (sel : List Nat) (c : Nat) (r : Record) : eligible (s.gateNow r) r = true ↔
    r.blk.started = true ∧ r.blk.worked = true ∧ (r.main = .observe ∨ r.main = .acquire ∨ r.main = .track) ∧
      (s.boundaryRecord sel c r).gate.state = .far ∧ r.tone.sub ≠ .bypass := by
  rw [eligible_iff, workedBlock, Bool.and_eq_true, and_assoc]
  refine and_congr_right fun hst => and_congr_right fun hw => ?_
  rw [boundaryRecord_of_worked hst hw]
  rfl

/-- Settles O17. -/
theorem selection : Obligations.Selection := by
  refine ⟨fun s hphase hrise => ⟨_, takes_blockBoundary hphase, ?_⟩,
    fun mode pointer cs hcs => ⟨walkOrder_perm hcs mode pointer, ?_⟩⟩
  · intro u order cost chosen
    have hkeys : (order.map (·.1)).Nodup := nodup_boundaryOrder hrise
    have hperm : order.Perm u.candidates := boundaryOrder_perm hrise
    have hchosen : ∀ l₁ l₂, order = l₁ ++ l₂ → chosen l₁ = taken 49152 l₁ := fun _ _ h => filter_mem_selection hrise h
    have hall : chosen order = taken 49152 order := hchosen order [] (List.append_nil _).symm
    have hplace : ∀ l₁ l₂ e, order = l₁ ++ e :: l₂ → (e.1 ∈ u.selection ↔ cost (chosen l₁) + 16 * e.2.segCount ≤ 49152) := by
      intro l₁ l₂ e h
      have hselection : u.selection = walk 49152 (l₁ ++ e :: l₂) := congrArg (walk 49152) h
      rw [hchosen _ _ h, hselection]
      exact mem_walk_iff (h ▸ hkeys)
    refine ⟨rising_candidates hrise, fun c r h => tget_of_mem hrise (List.mem_filter.1 h).1, ?_, hplace, ?_, ?_, ?_, ?_, ?_, ?_⟩
    · rw [hall]
      exact selection_eq u
    · have hcost : cost (chosen u.candidates) = cost (chosen order) := walkCost_perm (hperm.symm.filter _)
      rw [hcost, hall]
      exact walkCost_taken_le 49152 order
    · intro c r l h hfits
      refine (hplace [] l (c, r) h).2 ?_
      simpa [chosen, cost] using hfits
    · intro hfits c r h
      have htaken : taken 49152 order = order := taken_of_walkCost_le ((walkCost_perm hperm).trans_le hfits)
      rw [selection_eq]
      exact List.mem_map.2 ⟨(c, r), htaken.symm ▸ hperm.mem_iff.2 h, rfl⟩
    · intro c r hr
      obtain ⟨kinds, hq⟩ := rec?_blockBoundary hr
      refine ⟨_, hq, ?_, ?_⟩
      · exact (mem_candidates hr).trans (eligible_iff_boundaryRecord u u.selection c r)
      · show skipAfter (eligible (u.gateNow r) r) (decide (c ∈ u.selection)) r.skip = _
        by_cases hc : (c, r) ∈ u.candidates
        · rw [if_pos hc, (mem_candidates hr).1 hc]
          simp [skipAfter]
        · rw [if_neg hc, Bool.eq_false_iff.2 fun h => hc ((mem_candidates hr).2 h)]
          rfl
    · intro h
      rw [blockBoundary_pointer, settle_sched, settle_pointer]
      rcases h with h | h
      · rw [h]
        rfl
      · rw [h]
        cases s.sched <;> rfl
    · intro hmode l c h
      rw [blockBoundary_pointer, settle_sched, hmode, h]
      simp [pointerAfter]
  · intro l₁ l₂ l₃ e d h
    have hbefore : WalksBefore mode pointer e d := of_pairwise_split (h ▸ pairwise_walkOrder hcs mode pointer)
    refine ⟨?_, ?_⟩
    · rintro rfl
      intro cls
      have hcls : ∀ x : Nat × Record, cls x = urgencyClass x.2 := fun x => (urgencyClass_eq x.2).symm
      rw [hcls, hcls]
      exact hbefore
    · rintro rfl
      exact hbefore

end Sys2Proof.EchoAdaptation


/-! PROOFS. The noise generator has period 65535, and a comfort-noise sample is at most the noise floor (R104, R106); O8. -/

namespace Sys2Proof.ResidualProcessing

open Sys2Proof Sys2Proof.Machine

/-! ### One step (R104) -/

theorem noiseStep_eq (w : BitVec 16) :
    noiseStep w = if w.toNat % 2 = 1 then BitVec.ofNat 16 (w.toNat / 2) ^^^ 0xB400#16 else BitVec.ofNat 16 (w.toNat / 2) := by
  have hshift : BitVec.ofNat 16 (w.toNat / 2) = w >>> 1 := by
    apply BitVec.eq_of_toNat_eq
    rw [BitVec.toNat_ofNat, BitVec.toNat_ushiftRight, Nat.shiftRight_one]
    omega
  have hbit : w.getLsbD 0 = decide (w.toNat % 2 = 1) := Nat.testBit_zero _
  rw [hshift, noiseStep, hbit]
  simp only [decide_eq_true_eq]

/-- The tap word enters by exclusive or when the bit shifted out is set. -/
theorem noiseStep_eq_xor (w : BitVec 16) : noiseStep w = (w >>> 1) ^^^ (if w.getLsbD 0 then 0xB400#16 else 0) := by
  unfold noiseStep
  split
  · rfl
  · exact BitVec.xor_zero.symm

theorem noiseStep_of_lowBit_clear {w : BitVec 16} (h : w.getLsbD 0 = false) : noiseStep w = w >>> 1 := by
  rw [noiseStep, h]
  rfl

/-- A set low bit comes back as a set high bit; a clear one leaves the rest of a non-zero state in place. -/
theorem noiseStep_ne_zero {w : BitVec 16} (hw : w ≠ 0) : noiseStep w ≠ 0 := by
  intro h
  by_cases hbit : w.getLsbD 0 = true
  · have htop : (noiseStep w).getLsbD 15 = true := by simp [noiseStep_eq_xor, hbit]
    rw [h] at htop
    cases htop
  · rw [Bool.not_eq_true] at hbit
    rw [noiseStep_of_lowBit_clear hbit] at h
    refine hw (BitVec.eq_of_getLsbD_eq fun i _ => ?_)
    cases i with
    | zero => exact hbit
    | succ i =>
      rw [Nat.add_comm, ← BitVec.getLsbD_ushiftRight, h]
      exact BitVec.getLsbD_zero.trans BitVec.getLsbD_zero.symm

theorem noiseStep_iterate_ne_zero {w : BitVec 16} (hw : w ≠ 0) (n : Nat) : noiseStep^[n] w ≠ 0 := by
  induction n generalizing w with
  | zero => exact hw
  | succ n ih => exact ih (noiseStep_ne_zero hw)

@[simp] theorem noiseStep_zero : noiseStep 0 = 0 := rfl

/-- The step is linear: the register is combined by exclusive or alone. -/
theorem noiseStep_xor (v w : BitVec 16) : noiseStep (v ^^^ w) = noiseStep v ^^^ noiseStep w := by
  rw [noiseStep_eq_xor, noiseStep_eq_xor v, noiseStep_eq_xor w, BitVec.getLsbD_xor, BitVec.ushiftRight_xor_distrib]
  have hmask : (if (v.getLsbD 0 ^^ w.getLsbD 0) = true then 0xB400#16 else 0) =
      (if v.getLsbD 0 = true then 0xB400#16 else 0) ^^^ (if w.getLsbD 0 = true then 0xB400#16 else 0) := by
    cases v.getLsbD 0 <;> cases w.getLsbD 0 <;> rfl
  rw [hmask]
  ac_rfl

/-! ### Words as combinations of iterates -/

/-- The word of the high bit alone: its first sixteen iterates are the sixteen words of one bit. -/
def unit : BitVec 16 := 0x8000#16

/-- The exclusive or of those iterates of `w` whose bit is set in `bits`, the zeroth first. -/
def combine : List Bool → BitVec 16 → BitVec 16
  | [], _ => 0
  | b :: bits, w => (if b then w else 0) ^^^ noiseStep (combine bits w)

theorem noiseStep_combine (bits : List Bool) (w : BitVec 16) : noiseStep (combine bits w) = combine bits (noiseStep w) := by
  induction bits with
  | nil => exact noiseStep_zero
  | cons b bits ih =>
    rw [combine, combine, noiseStep_xor, ih, apply_ite noiseStep, noiseStep_zero]

theorem iterate_combine (n : Nat) (bits : List Bool) (w : BitVec 16) :
    noiseStep^[n] (combine bits w) = combine bits (noiseStep^[n] w) := by
  induction n generalizing w with
  | zero => rfl
  | succ n ih => rw [Function.iterate_succ_apply, noiseStep_combine, ih, Function.iterate_succ_apply]

theorem getMsbD_combine_unit {bits : List Bool} (h : bits.length ≤ 16) {i : Nat} (hi : i < 16) :
    (combine bits unit).getMsbD i = bits.getD i false := by
  induction bits generalizing i with
  | nil => exact BitVec.getMsbD_zero
  | cons b bits ih =>
    have hbits : bits.length ≤ 15 := Nat.le_of_succ_le_succ h
    have ih {j : Nat} := ih (Nat.le_of_succ_le h) (i := j)
    have hlow : (combine bits unit).getLsbD 0 = false := (ih (j := 15) (by decide)).trans (List.getD_eq_default _ _ hbits)
    rw [combine, noiseStep_of_lowBit_clear hlow, BitVec.getMsbD_xor, BitVec.getMsbD_ushiftRight]
    cases i with
    | zero => cases b <;> simp [unit]
    | succ i =>
      have hunit : unit.getMsbD (i + 1) = false :=
        (by decide : ∀ j < 15, unit.getMsbD (j + 1) = false) i (Nat.succ_lt_succ_iff.1 hi)
      rw [List.getD_cons_succ, ← ih (Nat.lt_of_succ_lt hi)]
      cases b <;> simp [hi, hunit]

/-- The bits of a word, the highest first. -/
def bitsOf (w : BitVec 16) : List Bool := (List.range 16).map w.getMsbD

theorem combine_bitsOf_unit (w : BitVec 16) : combine (bitsOf w) unit = w := by
  apply BitVec.eq_of_getMsbD_eq
  intro i hi
  rw [getMsbD_combine_unit (by simp [bitsOf]) hi]
  simp [bitsOf, hi, List.getD]

/-- The iterates of the unit give those of every word. -/
theorem iterate_eq_combine (n : Nat) (w : BitVec 16) : noiseStep^[n] w = combine (bitsOf w) (noiseStep^[n] unit) := by
  rw [← iterate_combine, combine_bitsOf_unit]

/-! ### The period -/

/-- 257 steps at once. -/
def leap (w : BitVec 16) : BitVec 16 := combine (bitsOf w) (noiseStep^[257] unit)

theorem iterate_eq_leaps (n : Nat) (w : BitVec 16) : noiseStep^[n] w = noiseStep^[n % 257] (leap^[n / 257] w) := by
  have hleap : noiseStep^[257] = leap := funext (iterate_eq_combine 257)
  calc noiseStep^[n] w
    _ = noiseStep^[n % 257 + 257 * (n / 257)] w := by rw [Nat.mod_add_div]
    _ = _ := by rw [Function.iterate_add_apply, Function.iterate_mul, hleap]

theorem isPeriodicPt_unit : Function.IsPeriodicPt noiseStep 65535 unit := (iterate_eq_leaps 65535 unit).trans (by decide +kernel)

theorem not_isPeriodicPt_unit : ∀ p ∈ [3, 5, 17, 257], ¬Function.IsPeriodicPt noiseStep (65535 / p) unit := by
  have hleaps : ∀ p ∈ [3, 5, 17, 257], noiseStep^[65535 / p % 257] (leap^[65535 / p / 257] unit) ≠ unit := by decide +kernel
  exact fun p hp h => hleaps p hp ((iterate_eq_leaps _ _).symm.trans h)

/-- A proper divisor of 65535 = 3 * 5 * 17 * 257 divides 65535 over one of these primes. -/
theorem dvd_of_proper_divisor {n : Nat} (h : n ∣ 65535) (hn : n ≠ 65535) : ∃ p ∈ [3, 5, 17, 257], n ∣ 65535 / p := by
  obtain ⟨k, hk⟩ := h
  obtain ⟨p, hp, hpk⟩ := Nat.exists_prime_and_dvd (show k ≠ 1 by rintro rfl; omega)
  have hfactor : n * p ∣ 3 * 5 * 17 * 257 := (Nat.mul_dvd_mul_left n hpk).trans (dvd_of_eq hk.symm)
  refine ⟨p, ?_, Nat.dvd_div_of_mul_dvd (mul_comm n p ▸ hfactor)⟩
  have hdvd := (Nat.dvd_mul_left p n).trans hfactor
  simpa only [hp.dvd_mul, or_assoc, Nat.prime_dvd_prime_iff_eq hp Nat.prime_three, Nat.prime_dvd_prime_iff_eq hp Nat.prime_five,
    Nat.prime_dvd_prime_iff_eq hp (show Nat.Prime 17 by norm_num), Nat.prime_dvd_prime_iff_eq hp (show Nat.Prime 257 by norm_num),
    List.mem_cons, List.not_mem_nil, or_false] using hdvd

theorem minimalPeriod_unit : Function.minimalPeriod noiseStep unit = 65535 := by
  by_contra hne
  obtain ⟨p, hp, hdvd⟩ := dvd_of_proper_divisor isPeriodicPt_unit.minimalPeriod_dvd hne
  exact not_isPeriodicPt_unit p hp (Function.isPeriodicPt_iff_minimalPeriod_dvd.2 hdvd)

section
variable {w : BitVec 16} (hw : w ≠ 0) (hperiod : Function.minimalPeriod noiseStep w = 65535)
include hw hperiod

/-- Over a period of 65535 the generator passes through as many non-zero values as there are. -/
theorem exists_iterate_eq_of_minimalPeriod {v : BitVec 16} (hv : v ≠ 0) : ∃ n < 65535, noiseStep^[n] w = v := by
  have hpos {x : BitVec 16} (hx : x ≠ 0) : x.toNat ∈ Finset.Ico 1 65536 :=
    Finset.mem_Ico.2 ⟨Nat.pos_of_ne_zero fun h => hx (BitVec.eq_of_toNat_eq h), x.isLt⟩
  have hsurj : Set.SurjOn (fun n => (noiseStep^[n] w).toNat) (Finset.range 65535) (Finset.Ico 1 65536) := by
    refine Finset.surjOn_of_injOn_of_card_le _ (fun n _ => hpos (noiseStep_iterate_ne_zero hw n)) ?_ (by simp)
    intro m hm n hn h
    refine Function.iterate_injOn_Iio_minimalPeriod (f := noiseStep) (x := w) ?_ ?_ (BitVec.eq_of_toNat_eq h)
    · rw [hperiod]; exact Finset.mem_range.1 hm
    · rw [hperiod]; exact Finset.mem_range.1 hn
  obtain ⟨n, hn, h⟩ := hsurj (hpos hv)
  exact ⟨n, Finset.mem_range.1 hn, BitVec.eq_of_toNat_eq h⟩

end

theorem minimalPeriod_noiseStep {w : BitVec 16} (hw : w ≠ 0) : Function.minimalPeriod noiseStep w = 65535 := by
  obtain ⟨n, _, rfl⟩ := exists_iterate_eq_of_minimalPeriod (by decide) minimalPeriod_unit hw
  rw [Function.minimalPeriod_apply_iterate (Function.minimalPeriod_pos_iff_mem_periodicPts.1 (by rw [minimalPeriod_unit]; decide)),
    minimalPeriod_unit]

/-! ### Comfort noise (R106) -/

theorem toInt_sat16 {v : Int} (hlo : -32768 ≤ v) (hhi : v ≤ 32767) : (sat16 v).toInt = v := by
  rw [sat16, min_eq_right hhi, max_eq_right hlo]
  exact BitVec.toInt_ofInt_eq_self (by decide) hlo (by omega)

/-- Before it is saturated a comfort-noise sample lies within the noise floor. -/
theorem abs_scaled_noise_le (w : BitVec 16) (nf : Nat) :
    -(nf : Int) ≤ (w.toInt * nf + 16384) / 32768 ∧ (w.toInt * nf + 16384) / 32768 ≤ nf := by
  have hlo : -32768 * (nf : Int) ≤ w.toInt * nf :=
    mul_le_mul_of_nonneg_right (BitVec.le_toInt w) (Int.natCast_nonneg nf)
  have hhi : w.toInt * nf ≤ 32767 * (nf : Int) :=
    mul_le_mul_of_nonneg_right (Int.le_of_lt_add_one BitVec.toInt_lt) (Int.natCast_nonneg nf)
  omega

/-- Settles O8: the orbit of one state, whose period is computed, holds all the non-zero states. -/
theorem comfortNoise : Obligations.ComfortNoise := by
  refine ⟨⟨noiseStep_eq, fun _ => noiseStep_ne_zero, fun w v hw hv => ?_, fun w n m hw hn hm h => ?_⟩, fun w nf hnf => ?_⟩
  · exact exists_iterate_eq_of_minimalPeriod hw (minimalPeriod_noiseStep hw) hv
  · rw [← minimalPeriod_noiseStep hw] at hn hm
    exact (Function.iterate_eq_iterate_iff_of_lt_minimalPeriod hn hm).1 h
  · obtain ⟨hlo, hhi⟩ := abs_scaled_noise_le w nf
    have hvalue : (Machine.comfortNoise w nf).toInt = (w.toInt * nf + 16384) / 32768 :=
      toInt_sat16 (v := (w.toInt * nf + 16384) / 32768) (by omega) (by omega)
    exact ⟨hvalue, by rw [hvalue]; omega⟩

end Sys2Proof.ResidualProcessing


/-! PROOFS. The level adjustment and the noise floor: the measures of a worked block end (R108, R109, R160 to R162) and the events
LEVEL and NOISE_FLOOR_RISE; O15, O24. -/

namespace Sys2Proof.ResidualProcessing

open Sys2Proof Sys2Proof.Machine Sys2Proof.TapSegments Sys2Proof.FrameTiming Sys2Proof.EchoAdaptation

/-! ### LEVEL and NOISE_FLOOR_RISE -/

/-- The level group with the limit run of one direction at 0 (R162). -/
def clearLimit (d : Dir) (l : LevelGroup) : LevelGroup :=
  match d with
  | .rx => { l with rx := { l.rx with limit := 0 } }
  | .tx => { l with tx := { l.tx with limit := 0 } }

section
variable {s : State} {c : Nat} {r : Record} (hr : s.rec? c = some r)
include hr

theorem takeLevel_eq (d : Dir) : takeLevel c d s = raise .level c (s.setRec c { r with lev := clearLimit d r.lev }) := by
  rw [takeLevel, modRec_eq hr]
  cases d <;> rfl

theorem takeFloorRise_eq : takeFloorRise c s =
    s.setRec c { r with resid := { r.resid with nf := min 32767 (r.resid.nf + max 1 (r.resid.nf / 64)), rise := 0 } } :=
  modRec_eq hr _

end

/-- Settles O24. -/
theorem levelAndFloorEvents : Obligations.LevelAndFloorEvents := by
  intro s c r hr
  refine ⟨fun d hdue => ?_, fun hdue => ?_⟩
  · let w : State := { s with due := s.due.erase (.level c d) }
    obtain ⟨⟨a, b, hraise⟩, hpulses⟩ := raise_setRec .level c { r with lev := clearLimit d r.lev } w
    have hevent : takeLevel c d w = _ := (takeLevel_eq (s := w) hr d).trans hraise
    rw [hraise] at hpulses
    exact ⟨_, takes_rowOf_of_mem hdue hevent, rec?_setRec_same _ _ w, hpulses, fun e he => rec?_setRec_other he _ w,
      rfl, rfl, rfl, rfl⟩
  · exact takes_rowOf_of_mem hdue (takeFloorRise_eq (s := { s with due := s.due.erase (.noiseFloorRise c) }) hr)

/-! ### Level adjustment (R160 to R162) -/

/-- The average sent level M lies below 7/8 of the target (R161). -/
def stepsUp (f : LevelFields) (l : LevelDir) : Bool := 8 * (l.avg * l.gain / 4096) < 7 * f.target

/-- M lies above 9/8 of the target (R161). -/
def stepsDown (f : LevelFields) (l : LevelDir) : Bool := !stepsUp f l && decide (9 * f.target < 8 * (l.avg * l.gain / 4096))

theorem adjust_eq (f : LevelFields) (l : LevelDir) : adjust f l = { l with
    gain := if stepsUp f l = true then min f.gmax (l.gain + max 1 (l.gain / 128))
      else if stepsDown f l = true then max f.gmin (l.gain - max 1 (l.gain / 128)) else l.gain
    limit := if (stepsUp f l = true ∧ f.gmax ≤ l.gain) ∨ (stepsDown f l = true ∧ l.gain ≤ f.gmin) then l.limit + 1 else 0 } := by
  by_cases hup : 8 * (l.avg * l.gain / 4096) < 7 * f.target
  · simp [adjust, stepsUp, stepsDown, hup]
  · by_cases hdown : 9 * f.target < 8 * (l.avg * l.gain / 4096)
    · simp [adjust, stepsUp, stepsDown, hup, hdown]
    · simp [adjust, stepsUp, stepsDown, hup, hdown]

theorem talks_rx (g : GateState) : talks .rx g = (decide (g = .far) || decide (g = .double)) := by cases g <;> rfl

theorem talks_tx (g : GateState) : talks .tx g = (decide (g = .near) || decide (g = .double)) := by cases g <;> rfl

section
variable (f : LevelFields) (d : Dir) (g : GateState) (sub : ToneSub) (l : LevelDir)

theorem levelEnd_eq : levelEnd f d g sub l = { l with
    gain := if (adjusting f d g sub && stepsUp f l) = true then min f.gmax (l.gain + max 1 (l.gain / 128))
      else if (adjusting f d g sub && stepsDown f l) = true then max f.gmin (l.gain - max 1 (l.gain / 128)) else l.gain
    limit := if adjusting f d g sub = true then
        (if (stepsUp f l = true ∧ f.gmax ≤ l.gain) ∨ (stepsDown f l = true ∧ l.gain ≤ f.gmin) then l.limit + 1 else 0)
      else l.limit } := by
  unfold levelEnd
  cases adjusting f d g sub with
  | true => exact adjust_eq f l
  | false => rfl

end

/-! ### Noise floor (R108, R109) -/

section
variable (g : GateState) (r : Record)

theorem floorGate_iff : floorGate g = true ↔ g = .idle ∨ g = .far := by simp [floorGate]

theorem floorEnd_eq : floorEnd g r = { r.resid with
    nf := if (g = .idle ∨ g = .far) ∧ blockLevel r.blk.sIn < r.resid.nf then blockLevel r.blk.sIn else r.resid.nf
    rise := if g = .idle ∨ g = .far then
        (if blockLevel r.blk.sIn < r.resid.nf then 0 else if r.resid.rise < 15 then r.resid.rise + 1 else r.resid.rise)
      else r.resid.rise } := by
  unfold floorEnd
  by_cases hg : g = .idle ∨ g = .far
  · have hgate : floorGate g = true := (floorGate_iff g).2 hg
    by_cases hlow : blockLevel r.blk.sIn < r.resid.nf
    · simp [hgate, hg, hlow]
    · by_cases hrise : r.resid.rise < 15
      · simp [hgate, hg, hlow, hrise, Nat.not_le.2 hrise]
      · simp [hgate, hg, hlow, hrise, Nat.not_lt.1 hrise]
  · have hgate : floorGate g = false := Bool.eq_false_iff.2 (mt (floorGate_iff g).1 hg)
    simp [hgate, hg]

theorem floorRises_iff : floorRises g r = true ↔
    (g = .idle ∨ g = .far) ∧ r.resid.nf ≤ blockLevel r.blk.sIn ∧ 15 ≤ r.resid.rise := by
  simp [floorRises, floorGate_iff, and_assoc]

end

/-! ### The events of a worked block end -/

/-- The level fields of a direction in a profile. -/
def fieldsOf (p : Profile) : Dir → LevelFields
  | .rx => p.rx
  | .tx => p.tx

/-- A direction of a level group. -/
def directionOf (l : LevelGroup) : Dir → LevelDir
  | .rx => l.rx
  | .tx => l.tx

section
variable {p : Profile} {h : List Sample} {c : Nat} {r : Record} (hw : workedBlock r = true)
include hw

theorem level_mem_dueEvents (d : Dir) : DueEvent.level c d ∈ dueEvents p h c r ↔
    adjusting (fieldsOf p d) d (viewBlock p h r).gate.state r.tone.sub = true ∧
      (levelEnd (fieldsOf p d) d (viewBlock p h r).gate.state r.tone.sub (directionOf r.lev d)).limit = 1000 := by
  cases d <;> simp [dueEvents, hw, workedEnd, fieldsOf, directionOf, and_comm]

theorem noiseFloorRise_mem_dueEvents :
    DueEvent.noiseFloorRise c ∈ dueEvents p h c r ↔ floorRises (viewBlock p h r).gate.state r = true := by
  simp [dueEvents, hw]

end

/-- Settles O15. -/
theorem levelsAndFloor : Obligations.LevelsAndFloor := by
  intro s t c r hphase hrise ht hr hst hworked f level adjusted
  obtain rfl := Host.Outcome.next.inj ((takes_blockBoundary hphase).symm.trans ht)
  have hw : workedBlock r = true := by simp [workedBlock, hst, hworked]
  obtain ⟨kinds, hq⟩ := rec?_blockBoundary hr
  rw [boundaryRecord_of_worked hst hworked] at hq
  refine ⟨_, hq, ?_⟩
  intro quietGate
  have hadjusted (d : Dir) (g : GateState) (speaks : Bool) (hspeaks : talks d g = speaks)
      (hg : g = (viewBlock f ((settle s).histOf r) r).gate.state) :
      adjusted (fieldsOf f d) (directionOf r.lev d) speaks d (levelEnd (fieldsOf f d) d g r.tone.sub (directionOf r.lev d)) := by
    subst hspeaks hg
    have hlevel := levelEnd_eq (fieldsOf f d) d (viewBlock f ((settle s).histOf r) r).gate.state r.tone.sub (directionOf r.lev d)
    refine ⟨(congrArg LevelDir.avg hlevel :), (congrArg LevelDir.gain hlevel :), (congrArg LevelDir.limit hlevel :), ?_⟩
    rw [mem_blockBoundary_due hrise hr rfl, level_mem_dueEvents hw]
    rfl
  have hfloor := floorEnd_eq (viewBlock f ((settle s).histOf r) r).gate.state r
  refine ⟨hadjusted .rx _ _ (talks_rx _) rfl, hadjusted .tx _ _ (talks_tx _) rfl, (congrArg ResidGroup.noise hfloor :),
    (congrArg ResidGroup.nf hfloor :), (congrArg ResidGroup.rise hfloor :), ?_⟩
  rw [mem_blockBoundary_due hrise hr rfl, noiseFloorRise_mem_dueEvents hw, floorRises_iff]
  rfl

end Sys2Proof.ResidualProcessing


/-! PROOFS. What R112 says of one context and of the whole part, and the changes that leave it alone: what records, queue and units
hold of searches, kept. -/

namespace Sys2Proof.WindowSearch

open Sys2Proof Sys2Proof.Machine Sys2Proof.TapSegments Sys2Proof.FrameTiming

/-! ### The search of one context, and of the part (R112) -/

/-- A shadow filter has 1024 coefficients, 0 beyond the span of its search (R114). -/
def FilterFits (un : SearchUnit) : Prop :=
  un.shadow.length = nTaps ∧ ∀ k ∈ un.shadow.drop (segTaps * un.span), k = 0

/-- The record `r` of context `c` agrees with the queue and the units of `s` (R112): with no search it stands in neither; QUEUED it
stands in the queue alone; SEARCHING it stands in its one unit alone, which searches over the record's span. -/
def SearchFits (s : State) (c : Nat) (r : Record) : Prop :=
  match r.link with
  | .none => c ∉ s.queue ∧ ∀ e ∈ s.units, e.2.ctx ≠ c
  | .queued => r.main.searchable = true ∧ c ∈ s.queue ∧ ∀ e ∈ s.units, e.2.ctx ≠ c
  | .searching u => r.main.searchable = true ∧ c ∉ s.queue ∧
      ∃ un, (u, un) ∈ s.units ∧ un.ctx = c ∧ un.span = r.id.span ∧ FilterFits un ∧ ∀ e ∈ s.units, e.2.ctx = c → e.1 = u

/-- `searchSafe` by contexts; the unit `x`, if there is one, may be IDLE though contexts wait. -/
structure SearchForms (x : Option Nat) (s : State) : Prop where
  rises : rising s.ctxs = true
  numbered : UnitsNumbered s.units
  nodup : s.queue.Nodup
  waiting : ∀ c ∈ s.queue, ∃ r, s.rec? c = some r
  served : ∀ e ∈ s.units, ∃ r, s.rec? e.2.ctx = some r
  fits : ∀ c r, s.rec? c = some r → SearchFits s c r
  busy : s.queue = [] ∨ ∀ u, u < nUnits → some u ≠ x → tget u s.units ≠ none

section
variable {s : State} {c : Nat} {r : Record}

theorem searchFits_none (hl : r.link = .none) :
    SearchFits s c r ↔ c ∉ s.queue ∧ ∀ e ∈ s.units, e.2.ctx ≠ c := by
  simp only [SearchFits, hl]

theorem searchFits_queued (hl : r.link = .queued) :
    SearchFits s c r ↔ r.main.searchable = true ∧ c ∈ s.queue ∧ ∀ e ∈ s.units, e.2.ctx ≠ c := by
  simp only [SearchFits, hl]

theorem searchFits_searching {u : Nat} (hl : r.link = .searching u) :
    SearchFits s c r ↔ r.main.searchable = true ∧ c ∉ s.queue ∧
      ∃ un, (u, un) ∈ s.units ∧ un.ctx = c ∧ un.span = r.id.span ∧ FilterFits un ∧ ∀ e ∈ s.units, e.2.ctx = c → e.1 = u := by
  simp only [SearchFits, hl]

theorem SearchFits.link_of_mem_queue (h : SearchFits s c r) (hc : c ∈ s.queue) : r.link = .queued := by
  cases hl : r.link with
  | none => exact absurd hc ((searchFits_none hl).1 h).1
  | queued => rfl
  | searching u => exact absurd hc ((searchFits_searching hl).1 h).2.1

/-- The record of a unit's context is SEARCHING with that unit, over its span. -/
theorem SearchFits.of_mem_units (h : SearchFits s c r) (hu : rising s.units = true) {e : Nat × SearchUnit} (he : e ∈ s.units)
    (hc : e.2.ctx = c) : r.link = .searching e.1 ∧ r.id.span = e.2.span ∧ FilterFits e.2 := by
  cases hl : r.link with
  | none => exact absurd hc (((searchFits_none hl).1 h).2 e he)
  | queued => exact absurd hc (((searchFits_queued hl).1 h).2.2 e he)
  | searching u =>
    obtain ⟨_, _, un, hmem, _, hspan, hfilter, hone⟩ := (searchFits_searching hl).1 h
    obtain rfl := hone e he hc
    obtain rfl : un = e.2 := Option.some.inj ((tget_of_mem hu hmem).symm.trans (tget_of_mem hu he))
    exact ⟨rfl, hspan.symm, hfilter⟩

theorem SearchFits.searchable (h : SearchFits s c r) (hl : r.link ≠ .none) : r.main.searchable = true := by
  cases hl' : r.link with
  | none => exact absurd hl' hl
  | queued => exact ((searchFits_queued hl').1 h).1
  | searching u => exact ((searchFits_searching hl').1 h).1

end

/-! ### The test of a state -/

/-- The numbers of a rising table of units are 4 exactly when each unit has an entry. -/
theorem units_full_iff {m : List (Nat × SearchUnit)} (hm : UnitsNumbered m) :
    m.length = nUnits ↔ ∀ u, u < nUnits → tget u m ≠ none := by
  obtain ⟨hrise, hlt⟩ := hm
  have hnodup : (m.map (·.1)).Nodup := List.pairwise_map.2 ((pairwise_of_rising hrise).imp fun h => Nat.ne_of_lt h)
  have hsub : m.map (·.1) ⊆ List.range nUnits := fun u hu => by
    obtain ⟨e, he, rfl⟩ := List.mem_map.1 hu
    exact List.mem_range.2 (hlt e he)
  have hmem : ∀ u, u ∈ m.map (·.1) ↔ tget u m ≠ none := fun u => by
    rw [List.mem_map, Option.ne_none_iff_exists']
    constructor
    · rintro ⟨e, he, rfl⟩
      exact ⟨e.2, tget_of_mem hrise he⟩
    · rintro ⟨un, hun⟩
      exact ⟨(u, un), mem_of_tget hun, rfl⟩
  constructor
  · intro hlen u hu
    have hperm := (List.subperm_of_subset hnodup hsub).perm_of_length_le (by simp [hlen])
    exact (hmem u).1 (hperm.mem_iff.2 (List.mem_range.2 hu))
  · intro hall
    have hsup : List.range nUnits ⊆ m.map (·.1) := fun u hu => (hmem u).2 (hall u (List.mem_range.1 hu))
    have h1 := (List.subperm_of_subset hnodup hsub).length_le
    have h2 := (List.subperm_of_subset List.nodup_range hsup).length_le
    simp only [List.length_map, List.length_range] at h1 h2
    omega

/-- The parts of `searchSafe`, one by one. -/
theorem searchSafe_parts {s : State} : searchSafe s = true ↔
    rising s.ctxs = true ∧ UnitsNumbered s.units ∧ s.queue.Nodup ∧ (∀ e ∈ s.ctxs, linkAgrees s e.1 e.2 = true) ∧
    (∀ c ∈ s.queue, ∃ r, s.rec? c = some r ∧ r.link = .queued) ∧
    (∀ e ∈ s.units, FilterFits e.2 ∧ ∃ r, s.rec? e.2.ctx = some r ∧ r.link = .searching e.1 ∧ r.id.span = e.2.span) ∧
    (s.queue = [] ∨ s.units.length = nUnits) := by
  simp only [searchSafe, UnitsNumbered, FilterFits, Bool.and_eq_true, Bool.or_eq_true, List.all_eq_true, Option.any_eq_true,
    decide_eq_true_eq, beq_iff_eq, List.isEmpty_iff, and_assoc]
  constructor
  · rintro ⟨hrise, hunits, hnodup, hlinks, hqueue, hserved, hfull⟩
    exact ⟨hrise, hunits, fun e he => (hserved e he).1, hnodup, hlinks, hqueue, fun e he => (hserved e he).2, hfull⟩
  · rintro ⟨hrise, hunits, hlt, hnodup, hlinks, hqueue, hserved, hfull⟩
    exact ⟨hrise, hunits, hnodup, hlinks, hqueue, fun e he => ⟨hlt e he, hserved e he⟩, hfull⟩

theorem linkAgrees_of_searchFits {s : State} (hu : rising s.units = true) {c : Nat} {r : Record} (h : SearchFits s c r) :
    linkAgrees s c r = true := by
  cases hl : r.link with
  | none => simp only [linkAgrees, hl]
  | queued =>
    obtain ⟨hm, hc, _⟩ := (searchFits_queued hl).1 h
    simp [linkAgrees, hl, hm, hc]
  | searching u =>
    obtain ⟨hm, _, un, hmem, hctx, _⟩ := (searchFits_searching hl).1 h
    simp [linkAgrees, hl, hm, tget_of_mem hu hmem, hctx]

theorem searchForms_iff {s : State} : SearchForms none s ↔ searchSafe s = true := by
  rw [searchSafe_parts]
  constructor
  · intro h
    refine ⟨h.rises, h.numbered, h.nodup, fun e he => ?_, fun c hc => ?_, fun e he => ?_, ?_⟩
    · exact linkAgrees_of_searchFits h.numbered.1 (h.fits e.1 e.2 (tget_of_mem h.rises he))
    · obtain ⟨r, hr⟩ := h.waiting c hc
      exact ⟨r, hr, (h.fits c r hr).link_of_mem_queue hc⟩
    · obtain ⟨r, hr⟩ := h.served e he
      obtain ⟨hlink, hspan, hfilter⟩ := (h.fits _ r hr).of_mem_units h.numbered.1 he rfl
      exact ⟨hfilter, r, hr, hlink, hspan⟩
    · rw [units_full_iff h.numbered]
      exact h.busy.imp id fun hb u hu => hb u hu nofun
  · rintro ⟨hrise, hunits, hnodup, hlinks, hqueue, hserved, hfull⟩
    have hidle : ∀ c r, s.rec? c = some r → (∀ u, r.link ≠ .searching u) → ∀ e ∈ s.units, e.2.ctx ≠ c := by
      rintro c r hr hl e he rfl
      obtain ⟨_, q, hq, hql, _⟩ := hserved e he
      exact hl e.1 (Option.some.inj (hq.symm.trans hr) ▸ hql)
    have hnot : ∀ c r, s.rec? c = some r → r.link ≠ .queued → c ∉ s.queue := fun c r hr hl hc => by
      obtain ⟨q, hq, hql⟩ := hqueue c hc
      exact hl (Option.some.inj (hq.symm.trans hr) ▸ hql)
    refine ⟨hrise, hunits, hnodup, fun c hc => (hqueue c hc).imp fun _ h => h.1,
      fun e he => (hserved e he).2.imp fun _ h => h.1, fun c r hr => ?_, ?_⟩
    · have hagrees : linkAgrees s c r = true := hlinks _ (mem_of_tget hr)
      cases hl : r.link with
      | none => exact (searchFits_none hl).2 ⟨hnot c r hr (by simp [hl]), hidle c r hr (by simp [hl])⟩
      | queued =>
        simp only [linkAgrees, hl, Bool.and_eq_true, List.contains_iff_mem] at hagrees
        exact (searchFits_queued hl).2 ⟨hagrees.1, hagrees.2, hidle c r hr (by simp [hl])⟩
      | searching u =>
        simp only [linkAgrees, hl, Bool.and_eq_true, Option.any_eq_true, beq_iff_eq] at hagrees
        obtain ⟨hm, un, hun, rfl⟩ := hagrees
        have hrecord : ∀ e ∈ s.units, e.2.ctx = un.ctx → FilterFits e.2 ∧ e.1 = u ∧ e.2.span = r.id.span := fun e he hctx => by
          obtain ⟨hfilter, q, hq, hql, hspan⟩ := hserved e he
          obtain rfl : q = r := Option.some.inj (hq.symm.trans (hctx ▸ hr))
          exact ⟨hfilter, by simpa using hql.symm.trans hl, hspan.symm⟩
        obtain ⟨hfilter, _, hspan⟩ := hrecord _ (mem_of_tget hun) rfl
        exact (searchFits_searching hl).2 ⟨hm, hnot _ r hr (by simp [hl]), un, mem_of_tget hun, rfl, hspan, hfilter,
          fun e he hctx => (hrecord e he hctx).2.1⟩
    · rw [units_full_iff hunits] at hfull
      exact hfull.imp id fun hb u hu _ => hb u hu

/-! ### Changes that leave searches alone -/

/-- From `r` to `q` the search link is the same; while there is a search, the main state still lets it run, and a running one still
searches over the record's span. -/
structure KeepsLink (r q : Record) : Prop where
  link : q.link = r.link
  searchable : r.link ≠ .none → r.main.searchable = true → q.main.searchable = true
  span : ∀ u, r.link = .searching u → q.id.span = r.id.span

theorem KeepsLink.of_eq {r q : Record} (hlink : q.link = r.link := by rfl) (hmain : q.main = r.main := by rfl)
    (hspan : q.id.span = r.id.span := by rfl) : KeepsLink r q := ⟨hlink, fun _ h => hmain ▸ h, fun _ _ => hspan⟩

theorem KeepsLink.refl (r : Record) : KeepsLink r r := .of_eq

theorem KeepsLink.trans {r q p : Record} (h : KeepsLink r q) (k : KeepsLink q p) : KeepsLink r p :=
  ⟨k.link.trans h.link, fun hl hm => k.searchable (h.link ▸ hl) (h.searchable hl hm),
    fun u hl => (k.span u (h.link.trans hl)).trans (h.span u hl)⟩

/-- From `un` to `v` the search is one of the same context and span, with a filter of the same form. -/
structure KeepsUnit (un v : SearchUnit) : Prop where
  ctx : v.ctx = un.ctx
  span : v.span = un.span
  filter : FilterFits un → FilterFits v

theorem KeepsUnit.of_eq {un v : SearchUnit} (hctx : v.ctx = un.ctx := by rfl) (hspan : v.span = un.span := by rfl)
    (hshadow : v.shadow = un.shadow := by rfl) : KeepsUnit un v := ⟨hctx, hspan, fun h => by rwa [FilterFits, hspan, hshadow]⟩

/-- From `s` to `t` the queue is the same, and records and units differ only in what leaves their searches alone. -/
structure KeepsSearches (s t : State) : Prop where
  rises : rising s.ctxs = true → rising t.ctxs = true
  queue : t.queue = s.queue
  units : ∃ g : SearchUnit → SearchUnit, (∀ un, KeepsUnit un (g un)) ∧ t.units = s.units.map fun e => (e.1, g e.2)
  bound : ∀ c r, s.rec? c = some r → ∃ q, t.rec? c = some q ∧ KeepsLink r q
  vacant : ∀ c, s.rec? c = none → t.rec? c = none

namespace KeepsSearches

variable {s t : State}

theorem units_of_eq (h : t.units = s.units) :
    ∃ g : SearchUnit → SearchUnit, (∀ un, KeepsUnit un (g un)) ∧ t.units = s.units.map fun e => (e.1, g e.2) :=
  ⟨id, fun _ => .of_eq, by simp [h]⟩

theorem of_eq (hc : t.ctxs = s.ctxs := by rfl) (hq : t.queue = s.queue := by rfl) (hu : t.units = s.units := by rfl) :
    KeepsSearches s t :=
  ⟨hc ▸ id, hq, units_of_eq hu, fun c r hr => ⟨r, (rec?_congr hc c).trans hr, .refl r⟩, fun c h => (rec?_congr hc c).trans h⟩

theorem refl (s : State) : KeepsSearches s s := .of_eq

theorem trans {u : State} (h : KeepsSearches s t) (k : KeepsSearches t u) : KeepsSearches s u := by
  obtain ⟨f, hf, hfu⟩ := h.units
  obtain ⟨g, hg, hgu⟩ := k.units
  refine ⟨k.rises ∘ h.rises, k.queue.trans h.queue, ⟨fun un => g (f un), fun un => ?_, ?_⟩, fun c r hr => ?_,
    fun c hc => k.vacant c (h.vacant c hc)⟩
  · exact ⟨(hg _).ctx.trans (hf _).ctx, (hg _).span.trans (hf _).span, (hg _).filter ∘ (hf _).filter⟩
  · rw [hgu, hfu, List.map_map]
    rfl
  · obtain ⟨q, hq, hrq⟩ := h.bound c r hr
    obtain ⟨p, hp, hqp⟩ := k.bound c q hq
    exact ⟨p, hp, hrq.trans hqp⟩

theorem setRec {c : Nat} {r q : Record} (hr : s.rec? c = some r) (hk : KeepsLink r q) : KeepsSearches s (s.setRec c q) := by
  refine ⟨rising_tset, rfl, units_of_eq rfl, fun d p hp => ?_, fun d hd => ?_⟩
  · by_cases hdc : d = c
    · subst hdc
      obtain rfl := Option.some.inj (hr.symm.trans hp)
      exact ⟨q, rec?_setRec_same .., hk⟩
    · exact ⟨p, (rec?_setRec_other hdc ..).trans hp, .refl p⟩
  · have hdc : d ≠ c := fun h => by simp [h, hr] at hd
    exact (rec?_setRec_other hdc ..).trans hd

theorem modRec {f : Record → Record} (hf : ∀ r, KeepsLink r (f r)) (c : Nat) (s : State) : KeepsSearches s (s.modRec c f) := by
  rcases modRec_cases c f s with ⟨_, h⟩ | ⟨r, hr, h⟩ <;> rw [h]
  · exact refl s
  · exact setRec hr (hf r)

/-- Every record and every unit made anew, their searches left alone. -/
theorem of_map (f : Nat → Record → Record) (hf : ∀ c r, KeepsLink r (f c r)) {g : SearchUnit → SearchUnit}
    (hg : ∀ un, KeepsUnit un (g un)) (hc : t.ctxs = s.ctxs.map fun e => (e.1, f e.1 e.2)) (hq : t.queue = s.queue)
    (hu : t.units = s.units.map fun e => (e.1, g e.2)) : KeepsSearches s t := by
  have hrec : ∀ c, t.rec? c = (s.rec? c).map (f c) := fun c => by rw [State.rec?, hc, tget_map_key]; rfl
  exact ⟨fun h => hc ▸ rising_map f h, hq, ⟨g, hg, hu⟩, fun c r hr => ⟨f c r, by rw [hrec, hr]; rfl, hf c r⟩,
    fun c h => by rw [hrec, h]; rfl⟩

theorem foldl {α : Type} {f : State → α → State} (hf : ∀ x a, KeepsSearches x (f x a)) (l : List α) (s : State) :
    KeepsSearches s (l.foldl f s) := by
  induction l generalizing s with
  | nil => exact refl s
  | cons a l ih => exact (hf s a).trans (ih _)

/-- What agrees in `s` agrees in `t`. -/
theorem searchFits (h : KeepsSearches s t) {c : Nat} {r q : Record} (hk : KeepsLink r q) (hs : SearchFits s c r) :
    SearchFits t c q := by
  obtain ⟨g, hg, hu⟩ := h.units
  have hother : (∀ e ∈ s.units, e.2.ctx ≠ c) → ∀ e ∈ t.units, e.2.ctx ≠ c := fun hne e he => by
    rw [hu] at he
    obtain ⟨d, hd, rfl⟩ := List.mem_map.1 he
    exact fun hctx => hne d hd ((hg d.2).ctx.symm.trans hctx)
  cases hl : r.link with
  | none =>
    obtain ⟨hqueue, hunits⟩ := (searchFits_none hl).1 hs
    exact (searchFits_none (hk.link.trans hl)).2 ⟨h.queue ▸ hqueue, hother hunits⟩
  | queued =>
    obtain ⟨hm, hqueue, hunits⟩ := (searchFits_queued hl).1 hs
    exact (searchFits_queued (hk.link.trans hl)).2 ⟨hk.searchable (by simp [hl]) hm, h.queue ▸ hqueue, hother hunits⟩
  | searching u =>
    obtain ⟨hm, hqueue, un, hmem, hctx, hspan, hfilter, hone⟩ := (searchFits_searching hl).1 hs
    refine (searchFits_searching (hk.link.trans hl)).2 ⟨hk.searchable (by simp [hl]) hm, h.queue ▸ hqueue, g un, ?_,
      (hg un).ctx.trans hctx, ?_, (hg un).filter hfilter, fun e he hec => ?_⟩
    · rw [hu]
      exact List.mem_map.2 ⟨_, hmem, rfl⟩
    · rw [(hg un).span, hspan, hk.span u hl]
    · rw [hu] at he
      obtain ⟨d, hd, rfl⟩ := List.mem_map.1 he
      exact hone d hd ((hg d.2).ctx.symm.trans hec)

theorem searchForms (h : KeepsSearches s t) {x : Option Nat} (hs : SearchForms x s) : SearchForms x t := by
  have hbound : ∀ c, (∃ r, s.rec? c = some r) → ∃ q, t.rec? c = some q := fun c ⟨r, hr⟩ => (h.bound c r hr).imp fun _ h => h.1
  obtain ⟨g, hg, hu⟩ := h.units
  refine ⟨h.rises hs.rises, ⟨?_, fun e he => ?_⟩, h.queue ▸ hs.nodup, fun c hc => hbound c (hs.waiting c (h.queue ▸ hc)),
    fun e he => ?_, fun c q hq => ?_, ?_⟩
  · rw [hu]
    exact rising_map (fun _ => g) hs.numbered.1
  · rw [hu] at he
    obtain ⟨d, hd, rfl⟩ := List.mem_map.1 he
    exact hs.numbered.2 d hd
  · rw [hu] at he
    obtain ⟨d, hd, rfl⟩ := List.mem_map.1 he
    exact (hg d.2).ctx ▸ hbound _ (hs.served d hd)
  · cases hr : s.rec? c with
    | none => exact absurd ((h.vacant c hr).symm.trans hq) nofun
    | some r =>
      obtain ⟨q', hq', hk⟩ := h.bound c r hr
      obtain rfl := Option.some.inj (hq'.symm.trans hq)
      exact h.searchFits hk (hs.fits c r hr)
  · rw [h.queue]
    refine hs.busy.imp id fun hb u hlt hux => ?_
    rw [hu, tget_map]
    simpa using hb u hlt hux

end KeepsSearches

end Sys2Proof.WindowSearch


/-! PROOFS. Requests, ends and hand-overs of searches (R112 to R115, R126): each writes one record, and what it does to queue and
units agrees with it. -/

namespace Sys2Proof.WindowSearch

open Sys2Proof Sys2Proof.Machine Sys2Proof.TapSegments Sys2Proof.FrameTiming

/-! ### One record written, queue and units changed for its context alone -/

theorem SearchFits.congr {s t : State} {c : Nat} {r : Record} (hqueue : c ∈ t.queue ↔ c ∈ s.queue)
    (hunits : ∀ e, e.2.ctx = c → (e ∈ t.units ↔ e ∈ s.units)) (h : SearchFits s c r) : SearchFits t c r := by
  have hidle : (∀ e ∈ s.units, e.2.ctx ≠ c) → ∀ e ∈ t.units, e.2.ctx ≠ c := fun hne e he hctx =>
    hne e ((hunits e hctx).1 he) hctx
  cases hl : r.link with
  | none =>
    obtain ⟨hq, hu⟩ := (searchFits_none hl).1 h
    exact (searchFits_none hl).2 ⟨mt hqueue.1 hq, hidle hu⟩
  | queued =>
    obtain ⟨hm, hq, hu⟩ := (searchFits_queued hl).1 h
    exact (searchFits_queued hl).2 ⟨hm, hqueue.2 hq, hidle hu⟩
  | searching u =>
    obtain ⟨hm, hq, un, hmem, hctx, hspan, hfilter, hone⟩ := (searchFits_searching hl).1 h
    exact (searchFits_searching hl).2 ⟨hm, mt hqueue.1 hq, un, (hunits (u, un) hctx).2 hmem, hctx, hspan, hfilter,
      fun e he hec => hone e ((hunits e hec).1 he) hec⟩

/-- What a change must show that writes the record `q` of context `c`: queue and units are the same but for `c`, and agree with
`q`. -/
theorem SearchForms.relink {x y : Option Nat} {s t : State} {c : Nat} {q : Record} (hs : SearchForms x s)
    (hctxs : t.ctxs = tset c q s.ctxs) (hnumbered : UnitsNumbered t.units) (hnodup : t.queue.Nodup)
    (hqueue : ∀ d, d ≠ c → (d ∈ t.queue ↔ d ∈ s.queue)) (hunits : ∀ e, e.2.ctx ≠ c → (e ∈ t.units ↔ e ∈ s.units))
    (hown : SearchFits t c q) (hbusy : t.queue = [] ∨ ∀ u, u < nUnits → some u ≠ y → tget u t.units ≠ none) :
    SearchForms y t := by
  have hsame : t.rec? c = some q := by rw [State.rec?, hctxs, tget_tset_same]
  have hother : ∀ d, d ≠ c → t.rec? d = s.rec? d := fun d hd => by rw [State.rec?, hctxs, tget_tset_other hd]; rfl
  have hbound : ∀ d, (d ≠ c → ∃ r, s.rec? d = some r) → ∃ r, t.rec? d = some r := fun d h => by
    by_cases hd : d = c
    · exact ⟨q, hd ▸ hsame⟩
    · exact (h hd).imp fun _ hr => (hother d hd).trans hr
  refine ⟨hctxs ▸ rising_tset hs.rises, hnumbered, hnodup, fun d hd => hbound d fun hne => hs.waiting d ((hqueue d hne).1 hd),
    fun e he => hbound _ fun hne => hs.served e ((hunits e hne).1 he), fun d r hr => ?_, hbusy⟩
  by_cases hd : d = c
  · subst hd
    exact Option.some.inj (hsame.symm.trans hr) ▸ hown
  · exact (hs.fits d r ((hother d hd).symm.trans hr)).congr (hqueue d hd) fun e he => hunits e (he ▸ hd)

theorem unitsNumbered_tdel {m : List (Nat × SearchUnit)} (h : UnitsNumbered m) (u : Nat) : UnitsNumbered (tdel u m) :=
  ⟨rising_tdel h.1, fun e he => h.2 e (mem_tdel.1 he).1⟩

theorem unitsNumbered_tset {m : List (Nat × SearchUnit)} (h : UnitsNumbered m) {u : Nat} (hu : u < nUnits) (un : SearchUnit) :
    UnitsNumbered (tset u un m) :=
  ⟨rising_tset h.1, fun e he => (mem_tset he).elim (fun h => h ▸ hu) (h.2 e)⟩

/-- An entry at a number that had none stands beside all others. -/
theorem mem_tset_of_none {α : Type} {k : Nat} {v : α} {m : List (Nat × α)} (hm : rising m = true) (hk : tget k m = none)
    {e : Nat × α} : e ∈ tset k v m ↔ e = (k, v) ∨ e ∈ m := by
  refine ⟨mem_tset, ?_⟩
  rintro (rfl | he)
  · exact mem_of_tget (tget_tset_same ..)
  · have hne : e.1 ≠ k := fun h => by
      have := tget_of_mem hm (show (k, e.2) ∈ m from h ▸ he)
      exact absurd (hk.symm.trans this) nofun
    exact mem_of_tget ((tget_tset_other hne ..).trans (tget_of_mem hm he))

theorem filterFits_freshUnit (c n : Nat) (b : Bool) : FilterFits (freshUnit c n b) :=
  ⟨List.length_replicate, fun _ hk => List.eq_of_mem_replicate (List.mem_of_mem_drop hk)⟩

section
variable {s : State} {c u : Nat} {r : Record}

/-- A unit that is IDLE starts a search of a context that no unit searches for (R114). -/
theorem searchForms_startSearch (hs : SearchForms (some u) s) (hu : u < nUnits) (hidle : tget u s.units = none)
    (hr : s.rec? c = some r) (hm : r.main.searchable = true) (hl : ∀ v, r.link ≠ .searching v) (b : Bool) :
    SearchForms none (startSearch u c b s) := by
  have hmem : ∀ e, e ∈ tset u (freshUnit c r.id.span b) s.units ↔ e = (u, freshUnit c r.id.span b) ∨ e ∈ s.units := fun _ =>
    mem_tset_of_none hs.numbered.1 hidle
  have hnone : ∀ e ∈ s.units, e.2.ctx ≠ c := fun e he hctx =>
    hl e.1 ((hs.fits c r hr).of_mem_units hs.numbered.1 he hctx).1
  rw [startSearch_eq hr]
  refine hs.relink rfl (unitsNumbered_tset hs.numbered hu _) (hs.nodup.filter _) (fun d hd => by simp [hd]) (fun e he => ?_) ?_ ?_
  · rw [hmem, or_iff_right]
    rintro rfl
    exact he rfl
  · refine (searchFits_searching rfl).2 ⟨hm, by simp, _, (hmem _).2 (.inl rfl), rfl, rfl, filterFits_freshUnit ..,
      fun e he hctx => ?_⟩
    rcases (hmem e).1 he with rfl | he
    · rfl
    · exact absurd hctx (hnone e he)
  · refine hs.busy.imp (fun hq => by simp [hq]) fun hb v hv _ => ?_
    by_cases hvu : v = u
    · simp [hvu]
    · rw [tget_tset_other hvu]
      exact hb v hv (by simpa using hvu)

/-- A unit with nothing to hold takes the head of the queue, or becomes IDLE (R115). -/
theorem searchForms_freeUnit (hs : SearchForms (some u) { s with units := tdel u s.units }) (hu : u < nUnits) (b : Bool) :
    SearchForms none (freeUnit u b s) := by
  rcases freeUnit_cases u b s with ⟨hq, h⟩ | ⟨c, rest, hq, h⟩ <;> rw [h]
  · exact { hs with busy := .inl hq }
  · have hc : c ∈ s.queue := hq ▸ List.mem_cons_self
    obtain ⟨r, hr⟩ := hs.waiting c hc
    have hfits := hs.fits c r hr
    have hl : r.link = .queued := hfits.link_of_mem_queue hc
    exact searchForms_startSearch hs hu (tget_tdel_same ..) hr (hfits.searchable (by simp [hl])) (by simp [hl]) b

theorem idleUnit_some (h : s.idleUnit = some u) : u < nUnits ∧ tget u s.units = none := by
  rw [State.idleUnit, List.find?_range_eq_some] at h
  exact ⟨List.mem_range.1 h.2.1, by simpa using h.1⟩

theorem idleUnit_none (h : s.idleUnit = none) : ∀ v, v < nUnits → tget v s.units ≠ none := fun v hv => by
  rw [State.idleUnit, List.find?_range_eq_none] at h
  simpa [Option.isSome_iff_ne_none] using h v hv

theorem SearchForms.weaken (hs : SearchForms none s) (x : Option Nat) : SearchForms x s :=
  { hs with busy := hs.busy.imp id fun hb v hv _ => hb v hv nofun }

/-- A request of a search (R113). -/
theorem searchForms_requestSearch (hs : SearchForms none s) (c : Nat) (b : Bool) : SearchForms none (requestSearch c b s) := by
  rcases requestSearch_cases c b s with h | ⟨r, hr, hm, hl, ⟨u, hu, h⟩ | ⟨hall, h⟩⟩ <;> rw [h]
  · exact hs
  · obtain ⟨hlt, hidle⟩ := idleUnit_some hu
    exact searchForms_startSearch (hs.weaken _) hlt hidle hr hm (by simp [hl]) b
  · obtain ⟨hnot, hunits⟩ := (searchFits_none hl).1 (hs.fits c r hr)
    rw [setLink_eq hr]
    refine hs.relink rfl hs.numbered ?_ (fun d hd => ?_) (fun _ _ => .rfl) ?_ (.inr fun v hv _ => idleUnit_none hall v hv)
    · exact List.nodup_append.2 ⟨hs.nodup, List.nodup_singleton c, fun d hd e he => by
        rintro rfl
        exact hnot (List.mem_singleton.1 he ▸ hd)⟩
    · simp [hd]
    · exact (searchFits_queued rfl).2 ⟨hm, by simp, hunits⟩

/-- A search that a unit holds, taken from it: of the units' entries only the context's own is gone. -/
theorem mem_tdel_of_searching (hs : SearchForms none s) (hr : s.rec? c = some r) (hl : r.link = .searching u)
    {e : Nat × SearchUnit} : e ∈ tdel u s.units ↔ e ∈ s.units ∧ e.2.ctx ≠ c := by
  obtain ⟨_, _, un, hmem, hctx, _, _, hone⟩ := (searchFits_searching hl).1 (hs.fits c r hr)
  rw [mem_tdel]
  refine and_congr_right fun he => not_congr ⟨fun heu => ?_, hone e he⟩
  have : e.2 = un := Option.some.inj ((tget_of_mem hs.numbered.1 (show (u, e.2) ∈ s.units from heu ▸ he)).symm.trans
    (tget_of_mem hs.numbered.1 hmem))
  exact this ▸ hctx

theorem unit_lt_of_searching (hs : SearchForms none s) (hr : s.rec? c = some r) (hl : r.link = .searching u) : u < nUnits := by
  obtain ⟨_, _, un, hmem, _⟩ := (searchFits_searching hl).1 (hs.fits c r hr)
  exact hs.numbered.2 _ hmem

/-- The busy units, once the unit `u` is taken from its search. -/
theorem busy_tdel (hs : SearchForms none s) (u : Nat) :
    s.queue = [] ∨ ∀ v, v < nUnits → some v ≠ some u → tget v (tdel u s.units) ≠ none :=
  hs.busy.imp id fun hb v hv hvu => by
    rw [tget_tdel_other (by simpa using hvu)]
    exact hb v hv nofun

/-- A search taken from its unit: the unit holds nothing, and the record has no search. -/
theorem searchForms_vacated (hs : SearchForms none s) (hr : s.rec? c = some r) (hl : r.link = .searching u) {q : Record}
    (hq : q.link = .none) : SearchForms (some u) { s.setRec c q with units := tdel u s.units } := by
  obtain ⟨_, hnot, _⟩ := (searchFits_searching hl).1 (hs.fits c r hr)
  have hmem := fun e => mem_tdel_of_searching (e := e) hs hr hl
  refine hs.relink rfl (unitsNumbered_tdel hs.numbered u) hs.nodup (fun _ _ => .rfl) (fun e he => ?_) ?_ (busy_tdel hs u)
  · exact (hmem e).trans (and_iff_left he)
  · exact (searchFits_none hq).2 ⟨hnot, fun e he => ((hmem e).1 he).2⟩

/-- The search of a record just written with its link kept, in whatever main state it now is, is ended (R115, R126). -/
theorem searchForms_endSearch_setRec (hs : SearchForms none s) (hr : s.rec? c = some r) {q : Record} (hlink : q.link = r.link)
    (b : Bool) : SearchForms none (endSearch c b (s.setRec c q)) := by
  have hq : (s.setRec c q).rec? c = some q := rec?_setRec_same ..
  have hunlink : setLink .none c (s.setRec c q) = s.setRec c { q with link := .none } := by
    rw [setLink_eq hq, setRec_setRec]
  rcases endSearch_cases c b (s.setRec c q) with ⟨hnone, _⟩ | ⟨q', hq', hcase⟩
  · exact absurd (hnone.symm.trans hq) nofun
  obtain rfl := Option.some.inj (hq.symm.trans hq')
  rcases hcase with ⟨hl, h⟩ | ⟨hl, h⟩ | ⟨u, hl, h⟩ <;> rw [h]
  · have hl : r.link = .none := hlink ▸ hl
    exact (KeepsSearches.setRec hr ⟨hlink, fun hne => absurd hl hne, by simp [hl]⟩).searchForms hs
  · obtain ⟨_, _, hunits⟩ := (searchFits_queued (hlink ▸ hl)).1 (hs.fits c r hr)
    rw [hunlink]
    refine hs.relink rfl hs.numbered (hs.nodup.filter _) (fun d hd => ?_) (fun _ _ => .rfl) ?_ (hs.busy.imp (fun h => ?_) id)
    · simp [hd]
    · exact (searchFits_none rfl).2 ⟨by simp, hunits⟩
    · simp [h]
  · have hl : r.link = .searching u := hlink ▸ hl
    rw [hunlink]
    exact searchForms_freeUnit (searchForms_vacated hs hr hl rfl) (unit_lt_of_searching hs hr hl) b

theorem searchForms_endSearch (hs : SearchForms none s) (c : Nat) (b : Bool) : SearchForms none (endSearch c b s) := by
  cases hr : s.rec? c with
  | none => simpa [endSearch, hr] using hs
  | some r =>
    have hself : s.setRec c r = s := by rw [State.setRec, tset_of_tget hs.rises hr]
    exact hself ▸ searchForms_endSearch_setRec hs hr rfl b

/-- A running search taken from its unit, which is freed, and requested again by the record now written (R41). -/
theorem searchForms_requeue (hs : SearchForms none s) (hr : s.rec? c = some r) (hl : r.link = .searching u) {q : Record}
    (hm : q.main.searchable = true) (hq : q.link = .queued) (b : Bool) :
    SearchForms none (freeUnit u b { s with ctxs := tset c q s.ctxs, queue := s.queue ++ [c] }) := by
  obtain ⟨_, hnot, _⟩ := (searchFits_searching hl).1 (hs.fits c r hr)
  have hu := unit_lt_of_searching hs hr hl
  rcases hs.busy with hempty | hbusy
  · have hvacated : SearchForms (some u) { s.setRec c { q with link := .none } with units := tdel u s.units } :=
      searchForms_vacated hs hr hl rfl
    have hown : State.rec? { s.setRec c { q with link := .none } with units := tdel u s.units } c = some { q with link := .none } :=
      tget_tset_same ..
    have hstart := searchForms_startSearch hvacated hu (tget_tdel_same ..) hown hm nofun b
    have halone : freeUnit u b { s with ctxs := tset c q s.ctxs, queue := s.queue ++ [c] } =
        startSearch u c b { s.setRec c { q with link := .none } with units := tdel u s.units } := by
      have hwaits : State.rec? { s with ctxs := tset c q s.ctxs, queue := s.queue ++ [c] } c = some q := tget_tset_same ..
      rw [startSearch_eq hown, freeUnit_head (rest := []) (by simp [hempty]) List.not_mem_nil hwaits]
      simp [State.setRec, tset_tset, hempty]
    exact halone ▸ hstart
  · have hmem := fun e => mem_tdel_of_searching (e := e) hs hr hl
    refine searchForms_freeUnit ?_ hu b
    refine hs.relink rfl (unitsNumbered_tdel hs.numbered u) ?_ (fun d hd => ?_) (fun e he => ?_) ?_ (.inr fun v hv hvu => ?_)
    · exact (hs.nodup.concat hnot).perm (.of_eq List.concat_eq_append)
    · simp [hd]
    · exact (hmem e).trans (and_iff_left he)
    · exact (searchFits_queued hq).2 ⟨hm, by simp, fun e he => ((hmem e).1 he).2⟩
    · rw [tget_tdel_other (by simpa using hvu)]
      exact hbusy v hv nofun

/-- A context newly bound, with no search (R19). -/
theorem searchForms_bound (hs : SearchForms none s) (hc : s.rec? c = none) {q : Record} (hq : q.link = .none) :
    SearchForms none (s.setRec c q) := by
  have hqueue : c ∉ s.queue := fun h => by
    obtain ⟨r, hr⟩ := hs.waiting c h
    exact absurd (hc.symm.trans hr) nofun
  have hunits : ∀ e ∈ s.units, e.2.ctx ≠ c := by
    rintro e he rfl
    obtain ⟨r, hr⟩ := hs.served e he
    exact absurd (hc.symm.trans hr) nofun
  exact hs.relink rfl hs.numbered hs.nodup (fun _ _ => .rfl) (fun _ _ => .rfl) ((searchFits_none hq).2 ⟨hqueue, hunits⟩) hs.busy

/-- A context without a search vacated. -/
theorem searchForms_vacate (hs : SearchForms none s) (hr : s.rec? c = some r) (hl : r.link = .none) :
    SearchForms none { s with ctxs := tdel c s.ctxs } := by
  obtain ⟨hqueue, hunits⟩ := (searchFits_none hl).1 (hs.fits c r hr)
  have hother : ∀ d, d ≠ c → tget d (tdel c s.ctxs) = s.rec? d := fun d hd => tget_tdel_other hd _
  refine ⟨rising_tdel hs.rises, hs.numbered, hs.nodup, fun d hd => ?_, fun e he => ?_, fun d q hq => ?_, hs.busy⟩
  · exact (hs.waiting d hd).imp fun _ h => (hother d fun hdc => hqueue (hdc ▸ hd)).trans h
  · exact (hs.served e he).imp fun _ h => (hother _ (hunits e he)).trans h
  · have hdc : d ≠ c := by
      rintro rfl
      exact absurd ((tget_tdel_same d s.ctxs).symm.trans hq) nofun
    exact hs.fits d q ((hother d hdc).symm.trans hq)

/-- After the end of its search a context has none. -/
theorem link_endSearch (hs : SearchForms none s) (hr : s.rec? c = some r) (b : Bool) :
    (endSearch c b s).rec? c = some { r with link := .none } :=
  (searchEnded_endSearch (searchForms_iff.1 hs) hr b).2

/-- A retirement (R20). -/
theorem searchForms_retire (hs : SearchForms none s) (c : Nat) : SearchForms none (retire c s) := by
  cases hr : s.rec? c with
  | none => simpa [retire, hr] using hs
  | some r =>
    have hvacated := searchForms_vacate (searchForms_endSearch hs c false) (link_endSearch hs hr false) rfl
    refine KeepsSearches.searchForms (.of_eq ?_ ?_ ?_) hvacated <;> simp [retire, hr]

end

end Sys2Proof.WindowSearch


/-! PROOFS. The events of a boundary, the boundary itself, the ends of searches and a frame keep searches, queue and units in
agreement (R112). -/

namespace Sys2Proof.WindowSearch

open Sys2Proof Sys2Proof.Machine Sys2Proof.TapSegments Sys2Proof.FrameTiming

/-! ### Operations that leave searches alone -/

theorem keepsSearches_raise (k : Kind) (c : Nat) (s : State) : KeepsSearches s (raise k c s) := by
  rcases raise_cases k c s with ⟨_, h⟩ | ⟨r, hr, ⟨_, h⟩ | ⟨_, h⟩⟩ <;> rw [h]
  · exact .refl s
  · exact .refl s
  · have hset : KeepsSearches s (s.setRec c { r with notes := { r.notes with kinds := addKind r.notes.kinds k } }) :=
      .setRec hr .of_eq
    exact hset.trans .of_eq

theorem keepsSearches_writeDetail (c : Nat) (d : Detail) (s : State) : KeepsSearches s (writeDetail c d s) :=
  .modRec (fun _ => .of_eq) c s

theorem enterMain_keepsLink {m : MainState} (hm : m.searchable = true) (r : Record) : KeepsLink r (enterMain m r) :=
  ⟨rfl, fun _ _ => hm, fun _ _ => rfl⟩

/-- A move to a main state that lets a search run ends none. -/
theorem keepsSearches_changeMain {m : MainState} (hm : m.searchable = true) (c : Nat) (b : Bool) (s : State) :
    KeepsSearches s (changeMain m c b s) := by
  rcases changeMain_cases m c b s with ⟨_, h⟩ | ⟨r, hr, ⟨_, h⟩ | ⟨_, h⟩⟩ <;> rw [h]
  · exact .refl s
  · exact .refl s
  · rw [if_pos hm]
    exact (KeepsSearches.setRec hr (enterMain_keepsLink hm r)).trans (keepsSearches_writeDetail ..)

theorem keepsSearches_changeTone (x : ToneSub) (c : Nat) (s : State) : KeepsSearches s (changeTone x c s) := by
  unfold changeTone
  cases hr : s.rec? c with
  | none => exact .refl s
  | some r =>
    have hset : KeepsSearches s (s.setRec c { r with tone := { r.tone with sub := x, release := 0 } }) :=
      .setRec hr .of_eq
    exact (hset.trans (keepsSearches_raise ..)).trans (keepsSearches_writeDetail ..)

theorem keepsSearches_relocationEffects (c : Nat) (w : Windows) (b : Bool) (s : State) :
    KeepsSearches s (relocationEffects c w b s) := by
  unfold relocationEffects
  cases hr : s.rec? c with
  | none => exact .refl s
  | some r =>
    dsimp only
    split
    · exact .refl s
    · cases hm : r.main with
      | acquire | observe => exact .setRec hr (.of_eq (hmain := hm.symm))
      | track => exact keepsSearches_changeMain rfl ..
      | held | cut => exact .refl s

theorem keepsSearches_relocate (c : Nat) (first : Place) (second : Option Place) (src : List Coeff) (s : State) :
    KeepsSearches s (relocate c first second src s) := by
  unfold relocate
  cases hr : s.rec? c with
  | none => exact .refl s
  | some r =>
    have hset : ∀ w, KeepsSearches s (s.setRec c { r with wins := w }) := fun w => .setRec hr .of_eq
    dsimp only
    split
    · exact (hset _).trans .of_eq
    · exact (hset _).trans .of_eq

theorem keepsSearches_handOff (un : SearchUnit) (b : Bool) (s : State) : KeepsSearches s (handOff un b s) := by
  unfold handOff
  cases hr : s.rec? un.ctx with
  | none => exact .refl s
  | some r =>
    dsimp only
    split
    · exact (KeepsSearches.setRec hr .of_eq).trans (keepsSearches_raise ..)
    · next first second _ =>
      refine (keepsSearches_relocate un.ctx first second un.shadow s).trans ?_
      refine .trans (.trans ?_ (keepsSearches_relocationEffects ..)) (keepsSearches_raise ..)
      exact .modRec (fun _ => .of_eq) ..

theorem keepsSearches_takeConvergence (c : Nat) (s : State) : KeepsSearches s (takeConvergence c s) := by
  unfold takeConvergence
  cases hr : s.rec? c with
  | none => exact .refl s
  | some r =>
    dsimp only
    cases hm : r.main with
    | acquire => exact (keepsSearches_changeMain rfl ..).trans (keepsSearches_raise ..)
    | observe => exact .setRec hr (.of_eq (hmain := hm.symm))
    | track | held | cut => exact .refl s

theorem keepsSearches_takeLevel (c : Nat) (d : Dir) (s : State) : KeepsSearches s (takeLevel c d s) :=
  (KeepsSearches.modRec (fun _ => by cases d <;> exact .of_eq) c s).trans (keepsSearches_raise ..)

theorem keepsSearches_windowEndOff {c : Nat} {r : Record} {s : State} (hr : s.rec? c = some r) :
    KeepsSearches s (windowEndOff c r s) := by
  unfold windowEndOff
  split
  · exact .setRec hr .of_eq
  · exact (KeepsSearches.setRec hr .of_eq).trans (keepsSearches_changeTone ..)

theorem keepsSearches_countRelease (p : Profile) {c : Nat} {r : Record} {s : State} (hr : s.rec? c = some r) (x : ToneGroup) :
    KeepsSearches s (windowEndOn.countRelease p c r s x) := by
  have hset : ∀ n, KeepsSearches s (s.setRec c { r with tone := { x with release := n } }) := fun n =>
    .setRec hr .of_eq
  unfold windowEndOn.countRelease
  generalize (if quietWindow p.wRel r.tone = true then min 25 (x.release + 1) else 0) = n
  dsimp only
  split
  · exact (hset _).trans .of_eq
  · exact hset _

theorem keepsSearches_windowEndOn (p : Profile) {c : Nat} {r : Record} {s : State} (hr : s.rec? c = some r) :
    KeepsSearches s (windowEndOn p c r s) := by
  have hset : ∀ x, KeepsSearches s (s.setRec c { r with tone := x }) := fun x => .setRec hr .of_eq
  unfold windowEndOn
  cases r.tone.sub with
  | none =>
    dsimp only
    split
    · exact (hset _).trans .of_eq
    · exact hset _
  | nlpOff =>
    dsimp only
    split
    · exact (hset _).trans (keepsSearches_changeTone ..)
    · exact keepsSearches_countRelease p hr _
  | bypass => exact keepsSearches_countRelease p hr _

theorem keepsSearches_takeWindowEnd (c : Nat) (s : State) : KeepsSearches s (takeWindowEnd c s) := by
  unfold takeWindowEnd
  cases hr : s.rec? c with
  | none => exact .refl s
  | some r =>
    dsimp only
    split
    · exact keepsSearches_windowEndOn _ hr
    · exact keepsSearches_windowEndOff hr

theorem keepsSearches_takeToneEntry (c : Nat) (s : State) : KeepsSearches s (takeToneEntry c s) := by
  unfold takeToneEntry
  cases s.rec? c with
  | none => exact .refl s
  | some r =>
    dsimp only
    split
    · exact keepsSearches_changeTone ..
    · exact .refl s

theorem keepsSearches_takeRelease (c : Nat) (s : State) : KeepsSearches s (takeRelease c s) := by
  unfold takeRelease
  cases hr : s.rec? c with
  | none => exact .refl s
  | some r =>
    dsimp only
    split
    · exact .refl s
    · exact (KeepsSearches.setRec hr .of_eq).trans (keepsSearches_changeTone ..)

/-! ### The events -/

section
variable {s : State} (hs : SearchForms none s)
include hs

/-- A change of main state keeps the agreement: one to HELD or CUT ends the record's search (R15, R126). -/
theorem searchForms_changeMain (m : MainState) (c : Nat) (b : Bool) : SearchForms none (changeMain m c b s) := by
  cases hm : m.searchable with
  | true => exact (keepsSearches_changeMain hm ..).searchForms hs
  | false =>
    rcases changeMain_cases m c b s with ⟨_, h⟩ | ⟨r, hr, ⟨_, h⟩ | ⟨_, h⟩⟩ <;> rw [h]
    · exact hs
    · exact hs
    · rw [if_neg (by simp [hm])]
      exact (keepsSearches_writeDetail ..).searchForms (searchForms_endSearch_setRec hs hr (q := enterMain m r) rfl b)

theorem searchForms_takeExpiry (c : Nat) : SearchForms none (takeExpiry c s) := by
  unfold takeExpiry
  cases hr : s.rec? c with
  | none => exact hs
  | some r =>
    have hset : ∀ n, SearchForms none (s.setRec c { r with conv := { r.conv with deadline := 0, expiry := n } }) := fun n =>
      (KeepsSearches.setRec hr .of_eq).searchForms hs
    have hraise : ∀ n, SearchForms none
        (raise .slow c (s.setRec c { r with conv := { r.conv with deadline := 0, expiry := n } })) := fun n =>
      (keepsSearches_raise ..).searchForms (hset n)
    dsimp only
    split
    · split
      · exact searchForms_requestSearch (hraise 1) c true
      · exact hraise 2
      · exact hset _
    · exact hs

theorem searchForms_takeCut (c : Nat) : SearchForms none (takeCut c s) := by
  unfold takeCut
  cases hr : s.rec? c with
  | none => exact hs
  | some r =>
    have hset : KeepsSearches s (s.setRec c (cutFields r)) := .setRec hr .of_eq
    have hcut : SearchForms none { s.setRec c (cutFields r) with pool := zeroWindows s.pool r.wins } :=
      (hset.trans .of_eq).searchForms hs
    dsimp only
    split
    · exact (keepsSearches_raise ..).searchForms (searchForms_changeMain hcut ..)
    · exact hs

theorem searchForms_takeRecovery (c : Nat) : SearchForms none (takeRecovery c s) := by
  unfold takeRecovery
  cases hr : s.rec? c with
  | none => exact hs
  | some r =>
    have hset : KeepsSearches s (s.setRec c { r with div := soundGroup }) := .setRec hr .of_eq
    have hmain : ∀ m, SearchForms none (changeMain m c true (s.setRec c { r with div := soundGroup })) := fun m =>
      searchForms_changeMain (hset.searchForms hs) ..
    dsimp only
    split
    · cases (s.profileOf r).recovery with
      | auto => exact (keepsSearches_raise ..).searchForms (searchForms_requestSearch (hmain .acquire) c true)
      | holdAfter => exact (keepsSearches_raise ..).searchForms (hmain .held)
      | stay | holdAtCut => exact hs
    · exact hs

theorem searchForms_takeEvent (e : DueEvent) : SearchForms none (takeEvent e s) := by
  cases e with
  | convergence c => exact (keepsSearches_takeConvergence c s).searchForms hs
  | expiry c => exact searchForms_takeExpiry hs c
  | cut c => exact searchForms_takeCut hs c
  | recovery c => exact searchForms_takeRecovery hs c
  | level c d => exact (keepsSearches_takeLevel c d s).searchForms hs
  | noiseFloorRise c => exact (KeepsSearches.modRec (fun _ => .of_eq) c s).searchForms hs
  | stampAdvance => exact KeepsSearches.searchForms .of_eq hs
  | windowEnd c => exact (keepsSearches_takeWindowEnd c s).searchForms hs
  | toneEntry c => exact (keepsSearches_takeToneEntry c s).searchForms hs
  | release c => exact (keepsSearches_takeRelease c s).searchForms hs

theorem searchForms_settle : SearchForms none (settle s) :=
  settle_induction (P := SearchForms none) (fun _ h => KeepsSearches.searchForms .of_eq h)
    (fun e _ h => searchForms_takeEvent h e) hs

theorem searchForms_takeDue (e : DueEvent) : SearchForms none (takeDue e s) := by
  unfold takeDue
  split
  · exact searchForms_takeEvent (KeepsSearches.searchForms .of_eq hs) e
  · exact hs

end

/-! ### The boundary -/

theorem recordEnd_main (p : Profile) (h : List Sample) (r : Record) : (recordEnd p h r).main = r.main := by
  unfold recordEnd
  split
  · rfl
  · split <;> rfl

theorem recordEnd_link (p : Profile) (h : List Sample) (r : Record) : (recordEnd p h r).link = r.link := by
  unfold recordEnd
  split
  · rfl
  · split <;> rfl

theorem boundaryRecord_keepsLink (s : State) (sel : List Nat) (c : Nat) (r : Record) : KeepsLink r (s.boundaryRecord sel c r) :=
  .of_eq (recordEnd_link ..) (recordEnd_main ..) (congrArg Identity.span (recordEnd_id ..))

theorem correlations_length (e h : List Sample) (n : Nat) : (correlations e h n).length = n := by
  induction n generalizing h with
  | zero => rfl
  | succ n ih => rw [correlations, List.length_cons, ih]

/-- The taps of the span, moved, and those beyond it, kept (R117). -/
theorem shadowUpdate_moved_length (p : Profile) (h : List Sample) (r : Record) (un : SearchUnit) :
    (List.zipWith (stepCoeff 128 (nTaps * r.meas.px + p.delta)) (un.shadow.take (segTaps * un.span))
      (correlations un.resid.reverse h (segTaps * un.span))).length = min (segTaps * un.span) un.shadow.length := by
  rw [List.length_zipWith, List.length_take, correlations_length]
  omega

theorem shadowUpdate_length (p : Profile) (h : List Sample) (r : Record) (un : SearchUnit) :
    (shadowUpdate p h r un).length = un.shadow.length := by
  rw [shadowUpdate, List.length_append, shadowUpdate_moved_length, List.length_drop]
  omega

theorem drop_shadowUpdate (p : Profile) (h : List Sample) (r : Record) (un : SearchUnit) :
    (shadowUpdate p h r un).drop (segTaps * un.span) = un.shadow.drop (segTaps * un.span) := by
  have hmoved := shadowUpdate_moved_length p h r un
  have hbeyond : List.drop (segTaps * un.span - min (segTaps * un.span) un.shadow.length) (un.shadow.drop (segTaps * un.span)) =
      un.shadow.drop (segTaps * un.span) := by
    rcases Nat.le_total (segTaps * un.span) un.shadow.length with hle | hle
    · rw [Nat.min_eq_left hle, Nat.sub_self, List.drop_zero]
    · rw [List.drop_of_length_le hle, List.drop_nil]
  rw [shadowUpdate, List.drop_append, hmoved, hbeyond, List.drop_of_length_le (by omega), List.nil_append]

theorem unitEnd_keepsUnit (s : State) (un : SearchUnit) : KeepsUnit un (s.unitEnd un) := by
  unfold State.unitEnd
  cases s.rec? un.ctx with
  | none => exact .of_eq
  | some r =>
    dsimp only
    split
    · exact .of_eq
    · split
      · have hdrop := drop_shadowUpdate (s.profileOf r) (s.histOf r) r un
        exact ⟨rfl, rfl, fun ⟨hlen, hzero⟩ => ⟨(shadowUpdate_length ..).trans hlen, fun k hk =>
          hzero k (hdrop.subst (motive := fun l => k ∈ l) hk)⟩⟩
      · exact .of_eq

theorem keepsSearches_measured (s : State) : KeepsSearches s (measured s) :=
  .of_map (s.boundaryRecord s.selection) (boundaryRecord_keepsLink s s.selection) (unitEnd_keepsUnit s) rfl rfl rfl

theorem keepsSearches_blockBoundary (s : State) : KeepsSearches s (blockBoundary s) :=
  (keepsSearches_measured s).trans (.foldl (fun x c => keepsSearches_raise .warned c x) s.warnedNow _)

/-! ### Observations -/

theorem keepsSearches_setHighway (h : Nat) (y : Highway) (s : State) : KeepsSearches s (s.setHighway h y) := .of_eq

theorem keepsSearches_raiseHw (k : HwKind) (h : Nat) (s : State) : KeepsSearches s (raiseHw k h s) :=
  .of_eq (by simp) (by simp) (by simp)

theorem keepsSearches_makeObs (s : State) (h : Nat) : KeepsSearches s (makeObs s h) := by
  rcases makeObs_cases h s with ⟨he, _⟩ | ⟨y, _, ⟨_, he⟩ | ⟨_, he⟩ | ⟨_, _, he⟩⟩ <;> rw [he]
  · exact .refl s
  · exact (keepsSearches_setHighway ..).trans (keepsSearches_raiseHw ..)
  · exact (keepsSearches_setHighway ..).trans (keepsSearches_raiseHw ..)
  · exact keepsSearches_setHighway ..

/-- The row of a sync transition. -/
theorem keepsSearches_takeSync {brings : Highway → Bool} {act : Nat → Highway → State → State}
    (hact : ∀ h y x, KeepsSearches x (act h y x)) (h : Nat) (s : State) : KeepsSearches s (takeSync brings act h s) := by
  unfold takeSync
  cases tget h s.sync with
  | none => exact .refl s
  | some y =>
    dsimp only
    split
    · exact hact h y s
    · exact .refl s

/-! ### The ends of searches -/

/-- A unit's entry stands for a search of its context's record. -/
theorem SearchForms.link_of_unit {x : Option Nat} {s : State} (hs : SearchForms x s) {u : Nat} {un : SearchUnit}
    (hu : tget u s.units = some un) : ∃ r, s.rec? un.ctx = some r ∧ r.link = .searching u := by
  obtain ⟨r, hr⟩ := hs.served _ (mem_of_tget hu)
  exact ⟨r, hr, ((hs.fits _ r hr).of_mem_units hs.numbered.1 (mem_of_tget hu) rfl).1⟩

theorem endSearch_of_searching {s : State} {c u : Nat} {r : Record} (hr : s.rec? c = some r) (hl : r.link = .searching u)
    (b : Bool) : endSearch c b s = freeUnit u b (setLink .none c s) := by
  simp only [endSearch, hr, hl]

/-- What a search leaves behind is an ended search: its link set to NONE and its unit freed, once its context's record is done
with (R119, R125). -/
theorem freeUnit_setLink_eq_endSearch {s t : State} (hs : SearchForms none s) (ht : KeepsSearches s t) {u : Nat} {un : SearchUnit}
    (hu : tget u s.units = some un) (b : Bool) : freeUnit u b (setLink .none un.ctx t) = endSearch un.ctx b t := by
  obtain ⟨r, hr, hl⟩ := hs.link_of_unit hu
  obtain ⟨q, hq, hk⟩ := ht.bound _ r hr
  exact (endSearch_of_searching hq (hk.link.trans hl) b).symm

theorem searchForms_ended {s t : State} (hs : SearchForms none s) (ht : KeepsSearches s t) {u : Nat} {un : SearchUnit}
    (hu : tget u s.units = some un) (b : Bool) : SearchForms none (freeUnit u b (setLink .none un.ctx t)) := by
  rw [freeUnit_setLink_eq_endSearch hs ht hu]
  exact searchForms_endSearch (ht.searchForms hs) ..

section
variable {s : State} (hs : SearchForms none s) {u : Nat} {un v : SearchUnit} (hu : tget u s.units = some un) (hv : v.ctx = un.ctx)
include hs hu hv

/-- A completion, the unit taken as `v` (R119). -/
theorem searchForms_completeSearch (b : Bool) : SearchForms none (completeSearch u v b s) := by
  rw [completeSearch, hv]
  exact searchForms_ended hs (keepsSearches_handOff v b s) hu b

/-- A failure, the unit taken as `v` (R125). -/
theorem searchForms_failSearch (b : Bool) : SearchForms none (failSearch u v b s) := by
  rw [failSearch, hv]
  exact searchForms_ended hs (keepsSearches_raise ..) hu b

end

theorem searchForms_finishUnit (s : State) (u : Nat) (hs : SearchForms none s) : SearchForms none (finishUnit s u) := by
  unfold finishUnit
  cases hu : tget u s.units with
  | none => exact hs
  | some un =>
    dsimp only
    split
    · exact searchForms_completeSearch hs hu rfl true
    · split
      · exact searchForms_failSearch hs hu rfl true
      · exact hs

/-- The row of an end of a search: `act` is a completion or a failure. -/
theorem searchForms_takeSearchEnd {ends : SearchUnit → Bool} {act : Nat → SearchUnit → Bool → State → State}
    (hact : ∀ {x : State}, SearchForms none x → ∀ {u un v}, tget u x.units = some un → v.ctx = un.ctx → ∀ b,
      SearchForms none (act u v b x)) (u : Nat) {s : State} (hs : SearchForms none s) :
    SearchForms none (takeSearchEnd ends act u s) := by
  have hsettled := searchForms_settle hs
  unfold takeSearchEnd
  dsimp only
  cases hu : tget u (settle s).units with
  | none => exact hs
  | some un =>
    dsimp only
    split
    · split
      · exact hact hsettled hu (unitEnd_keepsUnit _ un).ctx false
      · exact hs
    · split
      · exact hact hsettled hu rfl true
      · exact hs

/-! ### A frame -/

theorem searchForms_closeFrame {s : State} (hs : SearchForms none s) : SearchForms none (closeFrame s) := by
  have hobserved : SearchForms none (allObserved s) := (KeepsSearches.foldl keepsSearches_makeObs _ s).searchForms hs
  have htaken : SearchForms none (boundaryTaken (allObserved s)) := by
    unfold boundaryTaken
    split
    · exact (keepsSearches_blockBoundary _).searchForms (searchForms_settle hobserved)
    · exact hobserved
  exact foldl_keepsProp (P := SearchForms none) searchForms_finishUnit _ (searchForms_settle htaken)

theorem keepsSearches_openFrame (s : State) : KeepsSearches s (openFrame s) :=
  .of_map (fun _ => openRecord s.startLines) (fun _ _ => .of_eq) (g := id) (fun _ => .of_eq) rfl rfl
    (by simp [openFrame, State.mapRecs])

theorem frameRecord_keepsLink (s : State) (rIn sIn : List Sample) (r : Record) : KeepsLink r (s.frameRecord rIn sIn r) := by
  unfold State.frameRecord
  split
  · exact .refl r
  · split <;> exact .of_eq

theorem frameUnit_keepsUnit (s : State) (sIn : List Sample) (un : SearchUnit) : KeepsUnit un (s.frameUnit sIn un) := by
  unfold State.frameUnit
  split
  · exact .of_eq
  · split <;> exact .of_eq

theorem keepsSearches_frameTaken (rIn sIn : List Sample) (marks : List SyncMarks) (a : State) :
    KeepsSearches a (frameTaken rIn sIn marks a) :=
  .of_map (fun _ => (shifted a).frameRecord rIn sIn) (fun _ => frameRecord_keepsLink _ rIn sIn)
    (frameUnit_keepsUnit (shifted a) sIn) rfl rfl rfl

theorem searchForms_frame (rIn sIn : List Sample) (marks : List SyncMarks) {s : State} (hs : SearchForms none s) :
    SearchForms none (frameTaken rIn sIn marks (atFrame s)) := by
  have hclosed := searchForms_closeFrame hs
  unfold atFrame
  generalize closeFrame s = v at hclosed
  exact ((keepsSearches_openFrame v).trans (keepsSearches_frameTaken rIn sIn marks _)).searchForms hclosed

end Sys2Proof.WindowSearch


/-! PROOFS. Every command, and so every step, keeps searches, queue and units in agreement (R112); O53. -/

namespace Sys2Proof.WindowSearch

open Sys2Proof Sys2Proof.Machine Sys2Proof.TapSegments Sys2Proof.FrameTiming

/-! ### Commands on a bound record -/

section
variable {s : State} (hs : SearchForms none s)
include hs

theorem searchForms_keyed {hw slot : Byte} {f : Nat → Record → State × Reply}
    (hf : ∀ c r, s.rec? c = some r → SearchForms none (f c r).1) : SearchForms none (keyed hw slot s f).1 := by
  rcases keyed_cases hw slot s f with ⟨_, h⟩ | ⟨_, ⟨_, h⟩ | ⟨c, r, _, hr, h⟩⟩ <;> rw [h]
  · exact hs
  · exact hs
  · exact hf c r hr

theorem searchForms_retireCmd (hw slot : Byte) : SearchForms none (retireCmd hw slot s).1 :=
  searchForms_keyed hs fun c _ _ => searchForms_retire hs c

theorem searchForms_engageCmd (hw slot : Byte) : SearchForms none (engageCmd hw slot s).1 :=
  searchForms_keyed hs fun c r _ => by
    split
    · exact searchForms_changeMain hs ..
    · exact hs

theorem searchForms_holdCmd (hw slot : Byte) : SearchForms none (holdCmd hw slot s).1 :=
  searchForms_keyed hs fun c r hr => by
    split
    · exact hs
    · refine searchForms_changeMain (KeepsSearches.searchForms ?_ hs) ..
      exact .setRec hr .of_eq

theorem searchForms_resumeCmd (hw slot : Byte) : SearchForms none (resumeCmd hw slot s).1 :=
  searchForms_keyed hs fun c r _ => by
    split
    · exact searchForms_changeMain hs ..
    · exact hs

theorem searchForms_restoreCmd (hw slot : Byte) : SearchForms none (restoreCmd hw slot s).1 :=
  searchForms_keyed hs fun c r _ => by
    split
    · exact hs
    · have hclear : ∀ t : State, KeepsSearches t (t.modRec c fun q => { q with div := soundGroup, conv := clearConv }) := fun t =>
        .modRec (fun _ => .of_eq) c t
      refine searchForms_requestSearch (KeepsSearches.searchForms ?_ (searchForms_changeMain hs .acquire c false)) ..
      exact (hclear _).trans .of_eq

theorem searchForms_searchCmd (hw slot : Byte) : SearchForms none (searchCmd hw slot s).1 :=
  searchForms_keyed hs fun c r _ => by
    split
    · exact hs
    · split
      · exact searchForms_requestSearch hs ..
      · exact hs

/-! ### Commands on windows and coefficients -/

/-- A clip, and the search after it: a running search is begun anew over the new span, any other is not of a span yet (R41). -/
theorem searchForms_respan {c : Nat} {r q : Record} (hr : s.rec? c = some r) (hlink : q.link = r.link) (hmain : q.main = r.main)
    (free : List Nat) : SearchForms none (respanSearch c r { s.setRec c q with free := free }) := by
  have hfits := hs.fits c r hr
  have hq : State.rec? { s.setRec c q with free := free } c = some q := rec?_setRec_same ..
  have hset : (∀ u, r.link ≠ .searching u) → SearchForms none { s.setRec c q with free := free } := fun hl =>
    have hkeeps : KeepsLink r q := ⟨hlink, fun _ hm => hmain ▸ hm, fun u hu => absurd hu (hl u)⟩
    ((KeepsSearches.setRec hr hkeeps).trans .of_eq).searchForms hs
  cases hl : r.link with
  | none =>
    unfold respanSearch
    rw [hl]
    split
    · exact hset (by simp [hl])
    · exact searchForms_requestSearch (hset (by simp [hl])) ..
  | queued =>
    rw [respanSearch_of_settled (.inr (.inr hl))]
    exact hset (by simp [hl])
  | searching u =>
    have hm := hfits.searchable (by simp [hl])
    have hfree : SearchForms none { s with free := free } := KeepsSearches.searchForms .of_eq hs
    have hrequeued := searchForms_requeue (q := { q with link := .queued }) hfree hr hl (hmain ▸ hm) rfl false
    rw [respanSearch_searching hm hl hq, State.setRec]
    simpa only [tset_tset] using hrequeued

theorem searchForms_amendSpanCmd (hw slot span : Byte) : SearchForms none (amendSpanCmd hw slot span s).1 :=
  searchForms_keyed hs fun c r hr => by
    dsimp only
    split
    · exact hs
    · refine searchForms_respan hs hr ?_ ?_ _ <;> rfl

theorem searchForms_amendWindowsAccepted (c : Nat) (r : Record) (first : Place) (second : Option Place) :
    SearchForms none (amendWindowsAccepted c r first second s) :=
  ((keepsSearches_relocate ..).trans (keepsSearches_relocationEffects ..)).searchForms (searchForms_endSearch hs c false)

theorem searchForms_amendWindowsCmd (hw slot b1 l1 b2 l2 : Byte) :
    SearchForms none (amendWindowsCmd hw slot b1 l1 b2 l2 s).1 :=
  searchForms_keyed hs fun c r _ => by
    dsimp only
    split
    · exact hs
    · split
      · exact hs
      · split
        · exact hs
        · split
          · exact hs
          · split <;> exact searchForms_amendWindowsAccepted hs ..

theorem searchForms_readTapsCmd (hw slot win pos : Byte) : SearchForms none (readTapsCmd hw slot win pos s).1 :=
  searchForms_keyed hs fun c r _ => by split <;> exact hs

theorem searchForms_writeTapsCmd (hw slot win pos : Byte) (coeffs : List Coeff) :
    SearchForms none (writeTapsCmd hw slot win pos coeffs s).1 :=
  searchForms_keyed hs fun c r _ => by
    split
    · exact hs
    · split
      · exact hs
      · exact KeepsSearches.searchForms .of_eq hs

/-! ### BIND, and the commands on profiles, settings and notices -/

theorem searchForms_bindAccepted (hw slot flags : Byte) (p g : Nat) (short : Bool) {c : Nat} (hc : s.rec? c = none) :
    SearchForms none (bindAccepted hw slot flags p c g short s).1 := by
  have hbound : ∀ q : Record, q.link = .none → SearchForms none (s.setRec c q) := fun q hq => searchForms_bound hs hc hq
  unfold bindAccepted
  dsimp only
  generalize hq : bindRecord c hw.toNat slot.toNat p s.stamp (s.profile p) (s.free.take g) short (flags.getLsbD 0) = q
  have hused : SearchForms none (useProfile p { s.setRec c q with
      free := s.free.drop g, pool := zeroWindows s.pool q.wins, index := tset (position hw.toNat slot.toNat) c s.index }) :=
    KeepsSearches.searchForms .of_eq (hbound q (hq ▸ rfl))
  split
  · exact hused
  · exact searchForms_requestSearch hused ..

theorem searchForms_bindCmd (hw slot profile flags : Byte) : SearchForms none (bindCmd hw slot profile flags s).1 := by
  unfold bindCmd
  split
  · exact hs
  · split
    · exact hs
    · split
      · exact hs
      · split
        · exact hs
        · split
          · exact hs
          · next hv =>
            split
            · exact hs
            · exact searchForms_bindAccepted hs _ _ _ _ _ _ (vacant_rec? hv)

theorem searchForms_amendProfileCmd (hw slot profile : Byte) : SearchForms none (amendProfileCmd hw slot profile s).1 := by
  unfold amendProfileCmd
  split
  · exact hs
  · refine searchForms_keyed hs fun c r hr => ?_
    dsimp only
    split
    · exact hs
    · have hset : KeepsSearches s (s.setRec c { r with id := { r.id with profile := profile.toNat } }) := .setRec hr .of_eq
      exact (hset.trans .of_eq).searchForms hs

theorem searchForms_setProfileCmd (profile : Byte) (f : ProfileMsg) : SearchForms none (setProfileCmd profile f s).1 := by
  unfold setProfileCmd
  split
  · exact hs
  · split
    · dsimp only
      split
      · exact hs
      · split
        · exact hs
        · exact KeepsSearches.searchForms .of_eq hs
    · exact hs

theorem searchForms_readProfileCmd (profile : Byte) : SearchForms none (readProfileCmd profile s).1 := by
  unfold readProfileCmd
  split <;> exact hs

theorem searchForms_configureCmd (e r m d u : Byte) : SearchForms none (configureCmd e r m d u s).1 := by
  rcases configureCmd_cases e r m d u s with h | ⟨mode, n, _, _, h⟩ <;> rw [h]
  · exact hs
  · have hframe := configured_frame e r m mode n s
    have hkept : KeepsSearches s (configured e r m mode n s) :=
      .of_eq (congrArg State.ctxs hframe :) (congrArg State.queue hframe :) (congrArg State.units hframe :)
    exact hkept.searchForms hs

theorem searchForms_resetHighwayCmd (hw : Byte) : SearchForms none (resetHighwayCmd hw s).1 := by
  unfold resetHighwayCmd
  split
  · exact hs
  · have hretired := foldl_keepsProp (P := SearchForms none) (fun _ c hx => searchForms_retire hx c) (s.boundOn hw.toNat) hs
    dsimp only
    rw [resetHighway_eq]
    refine KeepsSearches.searchForms ?_ hretired
    unfold silenced
    split <;> exact .of_eq

theorem searchForms_fetchNoticeCmd : SearchForms none (fetchNoticeCmd s).1 := by
  unfold fetchNoticeCmd
  cases s.pendingHighway with
  | some h => exact KeepsSearches.searchForms .of_eq hs
  | none =>
    cases hc : s.pendingContext with
    | none => exact hs
    | some e =>
      have hr : s.rec? e.1 = some e.2 := tget_of_mem hs.rises (List.mem_of_find?_eq_some hc)
      have hclear : KeepsSearches s (s.setRec e.1 (clearNotes e.2)) := .setRec hr .of_eq
      exact hclear.searchForms hs

/-! ### Every step -/

/-- What a link command does. -/
theorem searchForms_linkEffect {i : Instr} {f : State → State × Reply} (h : linkEffect i = some f) : SearchForms none (f s).1 := by
  cases i <;> simp only [linkEffect, Option.some.injEq, reduceCtorEq] at h <;> subst h
  case bind => exact searchForms_bindCmd hs ..
  case retire => exact searchForms_retireCmd hs ..
  case engage => exact searchForms_engageCmd hs ..
  case hold => exact searchForms_holdCmd hs ..
  case resume => exact searchForms_resumeCmd hs ..
  case restore => exact searchForms_restoreCmd hs ..
  case search => exact searchForms_searchCmd hs ..
  case query => exact searchForms_keyed hs fun _ _ _ => hs
  case amendSpan => exact searchForms_amendSpanCmd hs ..
  case amendWindows => exact searchForms_amendWindowsCmd hs ..
  case amendProfile => exact searchForms_amendProfileCmd hs ..
  case readTaps => exact searchForms_readTapsCmd hs ..
  case writeTaps => exact searchForms_writeTapsCmd hs ..
  case readPool => exact hs
  case setProfile => exact searchForms_setProfileCmd hs ..
  case readProfile => exact searchForms_readProfileCmd hs ..
  case configure => exact searchForms_configureCmd hs ..
  case readConfig => exact hs
  case resetHighway => exact searchForms_resetHighwayCmd hs ..
  case resetStamp => exact KeepsSearches.searchForms .of_eq hs
  case fetchNotice => exact searchForms_fetchNoticeCmd hs

end

theorem searchForms_command {i : Instr} {f : State → State × Reply} (h : linkEffect i = some f) (n : Nat) {s : State}
    (hs : SearchForms none s) : SearchForms none (s.command n f) :=
  KeepsSearches.searchForms .of_eq (searchForms_linkEffect (searchForms_settle hs) h)

theorem searchForms_transaction (bytes : List Byte) {s : State} (hs : SearchForms none s) :
    SearchForms none (transaction bytes s) := by
  rcases transaction_cases bytes s with ⟨r, l, h⟩ | ⟨i, f, _, hf, h⟩ <;> rw [h]
  · exact KeepsSearches.searchForms .of_eq hs
  · exact searchForms_command hf _ hs

theorem searchForms_powerOn (l : List Instr) : SearchForms none { State.reset with pending := l } :=
  ⟨rfl, ⟨rfl, List.forall_mem_nil _⟩, List.nodup_nil, List.forall_mem_nil _, List.forall_mem_nil _,
    fun _ r hr => absurd (show none = some r from hr) nofun, .inl rfl⟩

theorem searchForms_exec (i : Instr) {s : State} (hs : SearchForms none s) : ∃ t, exec i s = .next t ∧ SearchForms none t := by
  cases hf : linkEffect i with
  | some f =>
    obtain ⟨n, hn⟩ := exec_of_linkEffect hf
    exact ⟨_, hn s, searchForms_command hf n hs⟩
  | none =>
    cases i <;> simp only [linkEffect, reduceCtorEq] at hf
    case powerOn => exact ⟨_, rfl, searchForms_powerOn _⟩
    case frame rIn sIn marks => exact ⟨_, takes_frame rIn sIn marks s, searchForms_frame rIn sIn marks hs⟩
    case lock => exact ⟨_, rfl, (keepsSearches_takeSync (fun _ _ _ => .of_eq) ..).searchForms hs⟩
    case syncLost =>
      exact ⟨_, rfl, (keepsSearches_takeSync (fun h y x =>
        (keepsSearches_setHighway h _ x).trans (keepsSearches_raiseHw ..)) ..).searchForms hs⟩
    case syncBack =>
      exact ⟨_, rfl, (keepsSearches_takeSync (fun h y x =>
        (keepsSearches_setHighway h _ x).trans (keepsSearches_raiseHw ..)) ..).searchForms hs⟩
    case blockBoundary =>
      refine ⟨_, rfl, ?_⟩
      split
      · exact (keepsSearches_blockBoundary _).searchForms (searchForms_settle hs)
      · exact hs
    case searchCompletion => exact ⟨_, rfl, searchForms_takeSearchEnd searchForms_completeSearch _ hs⟩
    case searchFailure => exact ⟨_, rfl, searchForms_takeSearchEnd searchForms_failSearch _ hs⟩
    case read => exact ⟨_, rfl, KeepsSearches.searchForms .of_eq hs⟩
    case commandMessage => exact ⟨_, rfl, searchForms_transaction _ hs⟩
    all_goals exact ⟨_, rfl, searchForms_takeDue hs _⟩

/-- Settles O53: each context agrees by itself with queue and units, and a step writes one context's search at a time. -/
theorem searchesKept : Obligations.SearchesKept := by
  intro s t hsafe h
  have hs := searchForms_iff.2 hsafe
  unfold step at h
  split at h
  · exact Host.Outcome.next.inj h ▸ hsafe
  · next i rest _ =>
    obtain ⟨t', ht, hkept⟩ := searchForms_exec i (s := { s with pending := rest }) (KeepsSearches.searchForms .of_eq hs)
    exact Host.Outcome.next.inj (ht.symm.trans h) ▸ searchForms_iff.1 hkept

end Sys2Proof.WindowSearch


/-! PROOFS. The end of a search taken as its row: the unit as the row takes it, and what a failure does (R115, R119, R125); O30. -/

namespace Sys2Proof.WindowSearch

open Sys2Proof Sys2Proof.Machine Sys2Proof.TapSegments Sys2Proof.FrameTiming Sys2Proof.EchoAdaptation

/-! ### The row of an end of a search -/

/-- A row that finds its unit at the end of its search takes it: after the boundary as the boundary left it, before the boundary
after its own work of the block (R119; log 17). -/
theorem takeSearchEnd_of_ends {ends : SearchUnit → Bool} {s : State} {u : Nat} {un₀ un : SearchUnit}
    (act : Nat → SearchUnit → Bool → State → State) (hu : tget u (settle s).units = some un₀)
    (hbegun : 8 ≤ s.phase → un₀.begun = true)
    (hun : un = if 8 ≤ s.phase then (settle s).unitEnd un₀ else un₀) (hends : ends un = true) :
    takeSearchEnd ends act u s = act u un (decide (s.phase < 8)) (settle s) := by
  have hdue : (settle s).boundaryDue = decide (8 ≤ s.phase) := by
    rw [State.boundaryDue, settle_phase, blockFrames]
  unfold takeSearchEnd
  dsimp only
  rw [hu, hdue]
  by_cases hphase : 8 ≤ s.phase
  · rw [if_pos hphase] at hun
    simp [hphase, hbegun hphase, ← hun, hends, Nat.not_lt.2 hphase]
  · rw [if_neg hphase] at hun
    simp [hphase, ← hun, hends, Nat.lt_of_not_le hphase]

theorem ctx_of_takenUnit {s : State} {un₀ un : SearchUnit} (hun : un = if 8 ≤ s.phase then (settle s).unitEnd un₀ else un₀) :
    un.ctx = un₀.ctx := by
  rw [hun]
  split
  · exact (unitEnd_keepsUnit ..).ctx
  · rfl

/-! ### What the end of a search changes -/

/-- The end of a search changes the records, the queue and the units alone. -/
theorem endSearch_frame (c : Nat) (b : Bool) (s : State) :
    { endSearch c b s with ctxs := s.ctxs, queue := s.queue, units := s.units } = s := by
  apply state_ext <;> simp

theorem endSearch_onlyRecords {c : Nat} {b : Bool} {s t : State} (h : onlyRecords s t) : onlyRecords s (endSearch c b t) := by
  have hframe := endSearch_frame c b t
  generalize endSearch c b t = x at hframe ⊢
  unfold onlyRecords at h ⊢
  rw [← hframe] at h
  exact h

theorem pulses_congr {fresh : Bool} {route : Route} {s t t' : State} (ha : t'.lineA = t.lineA) (hb : t'.lineB = t.lineB)
    (h : pulses fresh route s t) : pulses fresh route s t' := by
  unfold pulses at h ⊢
  rwa [ha, hb]

/-- An end of a search is one from the state before as well, where only the record of the context itself was written in between. -/
theorem searchEnded_of_own {c : Nat} {l : SearchLink} {b : Bool} {s v t : State} (hc : c ∉ s.queue) (hqueue : v.queue = s.queue)
    (hunits : v.units = s.units) (hothers : othersKept c s v) (h : searchEnded c l b v t) : searchEnded c l b s t := by
  have hkept : (∀ d, d ≠ c → t.rec? d = v.rec? d) → ∀ d, d ≠ c → t.rec? d = s.rec? d := fun hk d hd =>
    (hk d hd).trans (hothers d hd)
  unfold searchEnded at h ⊢
  rw [hqueue, hunits] at h
  cases l with
  | none => exact h.imp_right (And.imp_right hkept)
  | queued => exact h.imp_right (And.imp_right hkept)
  | searching u =>
    dsimp only at h ⊢
    obtain hq | ⟨d, rest, hq⟩ : s.queue = [] ∨ ∃ d rest, s.queue = d :: rest := by cases s.queue <;> simp
    · rw [hq] at h ⊢
      exact h.imp_right (And.imp_right hkept)
    · rw [hq] at h hc ⊢
      obtain ⟨hrest, ⟨rd, hrd, htd, hu⟩, hk⟩ := h
      have hdc : d ≠ c := fun hd => hc (hd ▸ List.mem_cons_self)
      exact ⟨hrest, ⟨rd, (hothers d hdc).symm.trans hrd, htd, hu⟩, fun e hec hed => (hk e hec hed).trans (hothers e hec)⟩

/-- A search over, its context's record written as `q` on the way to `v`: its link becomes NONE, its unit is handed on, and nothing
else changes (R115). -/
theorem searchEnded_freeUnit {s v : State} (hs : SearchForms none s) {u : Nat} {un : SearchUnit} (hu : tget u s.units = some un)
    (hv : KeepsSearches s v) (hunits : v.units = s.units) (hothers : othersKept un.ctx s v) {q : Record}
    (hq : v.rec? un.ctx = some q) (b : Bool) {t : State} (ht : freeUnit u b (setLink .none un.ctx v) = t) :
    searchEnded un.ctx (.searching u) b s t ∧ t.rec? un.ctx = some { q with link := .none } := by
  obtain ⟨r, hr, hl⟩ := hs.link_of_unit hu
  obtain ⟨q', hq', hk⟩ := hv.bound _ r hr
  obtain rfl := Option.some.inj (hq.symm.trans hq')
  have hnot : un.ctx ∉ s.queue := not_mem_queue_of_link (searchForms_iff.1 hs) hr (by simp [hl])
  obtain ⟨hended, hrec⟩ := searchEnded_endSearch (searchForms_iff.1 (hv.searchForms hs)) hq b
  rw [← ht, freeUnit_setLink_eq_endSearch hs hv hu]
  rw [hk.link, hl] at hended
  exact ⟨searchEnded_of_own hnot hv.queue hunits hothers hended, hrec⟩

/-! ### A failure -/

/-- Raising a notice of a bound context (R180). -/
theorem raise_eq (k : Kind) {c : Nat} {r : Record} {s : State} (hs : rising s.ctxs = true) (hr : s.rec? c = some r) :
    (∃ a b, raise k c s = { s.setRec c { r with notes := withKind k r.notes } with lineA := a, lineB := b }) ∧
    pulses (!hasKind r.notes.kinds k) (routeOf r.notes.routing k) s (raise k c s) := by
  have hself : s.setRec c r = s := by rw [State.setRec, tset_of_tget hs hr]
  have := raise_setRec k c r s
  rwa [hself] at this

/-- Settles O30: the row takes its unit, and what a failure does is a raised notice and the end of a search. -/
theorem searchFailure : Obligations.SearchFailure := by
  intro s u un₀ un r hsafe hu hbegun hun hblocks hqual hr
  have hs := searchForms_iff.2 hsafe
  have hctx := ctx_of_takenUnit hun
  have hfailed : un.failed = true := by simp [SearchUnit.failed, hblocks, hqual]
  obtain ⟨⟨a, b, hraise⟩, hpulses⟩ := raise_eq .searchFailed hs.rises hr
  have htakes : takes (.searchFailure u) s (failSearch u un (decide (s.phase < 8)) (settle s)) :=
    congrArg Host.Outcome.next (takeSearchEnd_of_ends failSearch hu hbegun hun hfailed)
  have hkeeps := keepsSearches_raise .searchFailed un₀.ctx (settle s)
  rw [failSearch, hctx] at htakes
  have hend := freeUnit_setLink_eq_endSearch hs hkeeps hu (decide (s.phase < 8))
  rw [hraise] at hkeeps hpulses htakes hend
  obtain ⟨hended, hrec⟩ := searchEnded_freeUnit hs hu hkeeps rfl (fun d hd => rec?_setRec_other hd _ _)
    (rec?_setRec_same _ _ (settle s)) (decide (s.phase < 8)) rfl
  rw [hend] at htakes hended hrec
  exact ⟨_, htakes, hrec, hended, pulses_congr (by simp) (by simp) hpulses, by simp, endSearch_onlyRecords rfl⟩

end Sys2Proof.WindowSearch


/-! PROOFS. The shadow filter of a search unit: its residual of a frame and its update of a block (R114, R116 to R118); O27. -/

namespace Sys2Proof.WindowSearch

open Sys2Proof Sys2Proof.Machine Sys2Proof.TapSegments Sys2Proof.FrameTiming

/-! ### The residual of a frame (R116) -/

theorem dot_take_eq_sum (n : Nat) (cs : List Coeff) (xs : List Sample) :
    dot (cs.take n) xs = ((List.range n).map fun k => (cs.getD k 0).toInt * (xs.getD k 0).toInt).sum := by
  induction n generalizing cs xs with
  | zero => cases xs <;> rfl
  | succ n ih =>
    cases cs with
    | nil => simp [dot]
    | cons c cs =>
      cases xs with
      | nil => simp [dot]
      | cons x xs => simp [dot, ih, List.range_succ_eq_map, Function.comp_def]

/-- A history after a sample has entered it, at every delay that it keeps (R50). -/
theorem getD_pushHist (x : Sample) (h : List Sample) {k : Nat} (hk : k < historyDepth) :
    (pushHist x h).getD k 0 = if k = 0 then x else h.getD (k - 1) 0 := by
  cases k with
  | zero => exact getD_pushHist_zero x h
  | succ k => exact getD_pushHist_succ x h hk

/-- The history that a record reads in a frame: the sample just sent on R_out at delay 0, the others one delay further back. -/
theorem histOf_shifted {a : State} {r : Record} (hp : position r.id.hw r.id.slot < a.slots.length) :
    (shifted a).histOf r = pushHist (a.slotAt (position r.id.hw r.id.slot)).r2 (a.slotAt (position r.id.hw r.id.slot)).hist := by
  rw [State.histOf, shifted, slotAt_mapSlots _ hp]
  rfl

theorem shadowResidual_eq (un : SearchUnit) (h : List Sample) (y : Sample) : shadowResidual un h y =
    sat16 (y.toInt - (sat16 ((((List.range (16 * un.span)).map fun k =>
      (un.shadow.getD k 0).toInt * (h.getD k 0).toInt).sum + 16384) / 32768)).toInt) := by
  rw [shadowResidual, dot_take_eq_sum]
  rfl

/-- A unit's frame: a residual of a search begun, in a worked frame of its record; otherwise nothing (R55, R116). -/
theorem frameUnit_eq {s : State} {un : SearchUnit} {r : Record} (hr : s.rec? un.ctx = some r) (sIn : List Sample) :
    s.frameUnit sIn un = if un.begun = true ∧ r.blk.started = true ∧ s.locked r.id.hw = true then
      { un with resid := un.resid ++ [shadowResidual un (s.histOf r) (sIn.getD (position r.id.hw r.id.slot) 0)] } else un := by
  simp only [State.frameUnit, hr, Bool.and_eq_true, and_assoc]

theorem tget_units_frameTaken (rIn sIn : List Sample) (marks : List SyncMarks) (a : State) (u : Nat) :
    tget u (frameTaken rIn sIn marks a).units = (tget u a.units).map ((shifted a).frameUnit sIn) :=
  tget_map ((shifted a).frameUnit sIn) u a.units

/-! ### The block end of a unit (R114, R117, R118) -/

section
variable {s : State} {un : SearchUnit} {r : Record} (hr : s.rec? un.ctx = some r)
include hr

theorem unitEnd_of_not_begun (hb : un.begun = false) : s.unitEnd un = { un with begun := true, resid := [] } := by
  simp [State.unitEnd, hr, hb]

theorem unitEnd_of_begun (hb : un.begun = true) : s.unitEnd un = { un with
    blocks := un.blocks + 1, resid := []
    shadow := if searchQualifies (s.gateNow r) r = true then shadowUpdate (s.profileOf r) (s.histOf r) r un else un.shadow
    qual := if searchQualifies (s.gateNow r) r = true then un.qual + 1 else un.qual } := by
  simp only [State.unitEnd, hr, hb, Bool.not_true, Bool.false_eq_true, if_false]
  split <;> rfl

theorem unitEnd_opens : (s.unitEnd un).begun = true ∧ (s.unitEnd un).resid = [] := by
  cases hb : un.begun with
  | false => simp [unitEnd_of_not_begun hr hb]
  | true => simp [unitEnd_of_begun hr hb, hb]

end

/-- A coefficient of the shadow filter after a qualifying block: moved within the span, kept beyond it (R117). -/
theorem getD_shadowUpdate (p : Profile) (h : List Sample) (r : Record) {un : SearchUnit} (hlen : un.shadow.length = 1024)
    (hspan : un.span ≤ 64) (hresid : un.resid.length = 8) {k : Nat} (hk : k < 1024) :
    (shadowUpdate p h r un).getD k 0 = if k < 16 * un.span then
      stepCoeff 128 (nTaps * r.meas.px + p.delta) (un.shadow.getD k 0)
        ((List.range 8).map fun n => (un.resid.getD n 0).toInt * (h.getD (k + 7 - n) 0).toInt).sum
      else un.shadow.getD k 0 := by
  have hmoved := shadowUpdate_moved_length p h r un
  have hspan' : segTaps * un.span = 16 * un.span := rfl
  have hcoeff : un.shadow[k]? = some (un.shadow.getD k 0) := by
    rw [List.getD_eq_getElem _ _ (hlen ▸ hk), List.getElem?_eq_getElem]
  rw [shadowUpdate, List.getD_eq_getElem?_getD]
  split
  · next hlt =>
    rw [List.getElem?_append_left (by omega), List.getElem?_zipWith, List.getElem?_take_of_lt hlt, hcoeff,
      getElem?_correlations _ _ hlt, dot_reverse_eq_sum hresid]
    rfl
  · next hge =>
    rw [List.getElem?_append_right (by omega), hmoved, List.getElem?_drop, ← List.getD_eq_getElem?_getD]
    congr 1
    omega

/-- The gate decided for a worked block stands in the record after its boundary (R96). -/
theorem boundaryRecord_gate {s : State} {r : Record} (hst : r.blk.started = true) (hw : r.blk.worked = true) (sel : List Nat)
    (c : Nat) : (s.boundaryRecord sel c r).gate.state = s.gateNow r := by
  rw [boundaryRecord_of_worked hst hw]
  rfl

/-- A block qualifies for a search by the gate that its boundary leaves in the record (R117). -/
theorem searchQualifies_iff (s : State) (r : Record) (sel : List Nat) (c : Nat) : searchQualifies (s.gateNow r) r = true ↔
    r.blk.started = true ∧ r.blk.worked = true ∧ (s.boundaryRecord sel c r).gate.state = .far ∧ r.tone.sub ≠ .bypass := by
  simp only [searchQualifies, workedBlock, Bool.and_eq_true, decide_eq_true_eq, and_assoc]
  exact and_congr_right fun hst => and_congr_right fun hw => by rw [boundaryRecord_gate hst hw]

theorem tget_units_blockBoundary (s : State) (u : Nat) : tget u (blockBoundary s).units = (tget u s.units).map s.unitEnd := by
  have hunits : (blockBoundary s).units = (measured s).units :=
    (congrArg State.units (blockBoundary_frame s s.ctxs s.lineA s.lineB) :)
  rw [hunits]
  exact tget_map s.unitEnd u s.units

/-- Settles O27: the frame and the block end of a unit, in the states in which a frame and a boundary take them. -/
theorem shadowFilter : Obligations.ShadowFilter := by
  refine ⟨fun rIn sIn marks s t u un r ht hu hr hspan hp => ?_, fun s t u un r hphase _ ht hu hr hlen hspan => ?_⟩
  · intro p h a
    obtain rfl := Host.Outcome.next.inj ((takes_frame rIn sIn marks s).symm.trans ht)
    have hslots := atFrame_slots s
    generalize atFrame s = w at hu hr hslots
    have hr' : (shifted w).rec? un.ctx = some r := hr
    have hdepth : 16 * un.span ≤ historyDepth := (Nat.mul_le_mul_left 16 hspan).trans (by decide)
    have hhist : ∀ k, k < 16 * un.span → ((shifted w).histOf r).getD k 0 = h k := fun k hk => by
      rw [histOf_shifted (hslots ▸ hp), slotAt_congr hslots, getD_pushHist _ _ (Nat.lt_of_lt_of_le hk hdepth)]
    have hsum : ((List.range (16 * un.span)).map fun k =>
        (un.shadow.getD k 0).toInt * (((shifted w).histOf r).getD k 0).toInt).sum = a :=
      congrArg List.sum (List.map_congr_left fun k hk => by rw [hhist k (List.mem_range.1 hk)])
    rw [tget_units_frameTaken, hu, Option.map_some, frameUnit_eq hr', shadowResidual_eq, hsum]
    rfl
  · obtain rfl := Host.Outcome.next.inj ((takes_blockBoundary hphase).symm.trans ht)
    generalize settle s = w at hu hr
    obtain ⟨kinds, hq⟩ := rec?_blockBoundary hr
    have hkeeps := unitEnd_keepsUnit w un
    obtain ⟨hbegun, hresid⟩ := unitEnd_opens hr
    refine ⟨w.unitEnd un, _, by rw [tget_units_blockBoundary, hu]; rfl, hq, hkeeps.ctx, hkeeps.span, hbegun, hresid, fun hb => ?_,
      fun hb => ?_⟩
    · rw [unitEnd_of_not_begun hr hb]
      exact ⟨rfl, rfl, rfl⟩
    · intro qualifies d
      have hqualifies : searchQualifies (w.gateNow r) r = true ↔ qualifies :=
        searchQualifies_iff w r w.selection un.ctx
      rw [unitEnd_of_begun hr hb]
      simp only [hqualifies, true_and]
      refine ⟨?_, fun hnot => if_neg hnot, fun hyes hlen8 k hk => ?_⟩
      · split
        · exact (shadowUpdate_length ..).trans hlen
        · exact hlen
      · rw [if_pos hyes, getD_shadowUpdate _ _ _ hlen hspan hlen8 hk]
        rfl

end Sys2Proof.WindowSearch


/-! PROOFS. The evaluation of a shadow filter: the position of most energy, the window placed for it, and the second window (R120 to
R123); O28. -/

namespace Sys2Proof.WindowSearch

open Sys2Proof Sys2Proof.Machine Sys2Proof.TapSegments Sys2Proof.FrameTiming

/-! ### Segment energies (R120) -/

/-- The energy of position `p`, from its sixteen coefficients. -/
def positionEnergy (shadow : List Coeff) (p : Nat) : Nat :=
  ((List.range 16).map fun j => (shadow.getD (16 * p + j) 0).toInt.natAbs ^ 2).sum

theorem energy_segSlice (shadow : List Coeff) (p : Nat) : energy (segSlice shadow p) = positionEnergy shadow p := by
  have hcoeff : ∀ j, (shadow.drop (segTaps * p)).getD j 0 = shadow.getD (16 * p + j) 0 := fun j => by
    rw [List.getD_eq_getElem?_getD, List.getElem?_drop, List.getD_eq_getElem?_getD, segTaps]
  rw [energy_eq, segSlice, List.map_map]
  simp only [Function.comp_def, hcoeff]
  rfl

theorem segEnergies_length (shadow : List Coeff) (span : Nat) : (segEnergies shadow span).length = span := by
  simp [segEnergies]

theorem getD_segEnergies (shadow : List Coeff) {span p : Nat} (hp : p < span) :
    (segEnergies shadow span).getD p 0 = positionEnergy shadow p := by
  rw [List.getD_eq_getElem _ _ ((segEnergies_length ..).symm ▸ hp), ← energy_segSlice]
  simp [segEnergies]

/-! ### The position of most energy (R121, R122) -/

/-- `p` has the largest energy `e` among the positions below `n` that qualify, and is the lowest such. -/
def IsPeak (n : Nat) (e : Nat → Nat) (ok : Nat → Prop) (p : Nat) : Prop :=
  p < n ∧ ok p ∧ (∀ q, q < n → ok q → e q ≤ e p) ∧ ∀ q, q < p → ok q → e q < e p

theorem IsPeak.unique {n : Nat} {e : Nat → Nat} {ok : Nat → Prop} {p q : Nat} (hp : IsPeak n e ok p) (hq : IsPeak n e ok q) :
    p = q := by
  obtain ⟨hpn, hpok, hpmax, hpfirst⟩ := hp
  obtain ⟨hqn, hqok, hqmax, hqfirst⟩ := hq
  rcases Nat.lt_trichotomy p q with h | h | h
  · have := hqfirst p h hpok
    have := hpmax q hqn hqok
    omega
  · exact h
  · have := hpfirst q h hqok
    have := hqmax p hpn hpok
    omega

/-- What a look at position `p` makes of the best position so far. -/
def betterPosition (es : List Nat) (ok : Nat → Bool) (best : Option Nat) (p : Nat) : Option Nat :=
  if !ok p then best
  else match best with
    | none => some p
    | some q => if es.getD q 0 < es.getD p 0 then some p else some q

theorem bestPosition_eq_foldl (es : List Nat) (ok : Nat → Bool) :
    bestPosition es ok = (List.range es.length).foldl (betterPosition es ok) none := rfl

/-- The best position so far, once the positions below `n` are looked at. -/
def BestBelow (n : Nat) (e : Nat → Nat) (ok : Nat → Prop) : Option Nat → Prop
  | none => ∀ q, q < n → ¬ok q
  | some p => IsPeak n e ok p

theorem bestBelow_betterPosition {n : Nat} {es : List Nat} {ok : Nat → Bool} {best : Option Nat}
    (h : BestBelow n (es.getD · 0) (ok · = true) best) :
    BestBelow (n + 1) (es.getD · 0) (ok · = true) (betterPosition es ok best n) := by
  have hsucc : ∀ P : Nat → Prop, (∀ q, q < n → P q) → P n → ∀ q, q < n + 1 → P q := fun P hP hn q hq =>
    (Nat.lt_succ_iff_lt_or_eq.1 hq).elim (hP q) (· ▸ hn)
  unfold betterPosition
  cases hok : ok n with
  | false =>
    cases best with
    | none => exact hsucc _ h (by simp [hok])
    | some p =>
      obtain ⟨hp, hpok, hmax, hfirst⟩ := h
      exact ⟨by omega, hpok, hsucc _ hmax (by simp [hok]), hfirst⟩
  | true =>
    cases best with
    | none => exact ⟨by omega, hok, hsucc _ (fun q hq hqok => absurd hqok (h q hq)) fun _ => Nat.le_refl _,
        fun q hq hqok => absurd hqok (h q hq)⟩
    | some p =>
      obtain ⟨hp, hpok, hmax, hfirst⟩ := h
      by_cases hlt : es.getD p 0 < es.getD n 0
      · simp only [hlt, Bool.not_true, Bool.false_eq_true, if_false, if_true]
        have hless : ∀ q, q < n → ok q = true → es.getD q 0 < es.getD n 0 := fun q hq hqok =>
          Nat.lt_of_le_of_lt (hmax q hq hqok) hlt
        exact ⟨by omega, hok, hsucc _ (fun q hq hqok => (hless q hq hqok).le) fun _ => Nat.le_refl _, hless⟩
      · simp only [hlt, Bool.not_true, Bool.false_eq_true, if_false]
        exact ⟨by omega, hpok, hsucc _ hmax fun _ => Nat.le_of_not_lt hlt, hfirst⟩

theorem bestBelow_bestPosition (es : List Nat) (ok : Nat → Bool) :
    BestBelow es.length (es.getD · 0) (ok · = true) (bestPosition es ok) := by
  rw [bestPosition_eq_foldl]
  generalize es.length = n
  induction n with
  | zero => exact fun q hq => absurd hq (Nat.not_lt_zero q)
  | succ n ih =>
    rw [List.range_succ, List.foldl_append]
    exact bestBelow_betterPosition ih

section
variable {shadow : List Coeff} {span : Nat} {ok : Nat → Bool}

theorem isPeak_segEnergies {p : Nat} :
    IsPeak (segEnergies shadow span).length ((segEnergies shadow span).getD · 0) (ok · = true) p ↔
    IsPeak span (positionEnergy shadow) (ok · = true) p := by
  rw [segEnergies_length]
  refine and_congr_right fun hp => and_congr_right fun _ => and_congr ?_ ?_
  · exact forall₂_congr fun q hq => by dsimp only; rw [getD_segEnergies _ hq, getD_segEnergies _ hp]
  · exact forall₂_congr fun q hq => by dsimp only; rw [getD_segEnergies _ (hq.trans hp), getD_segEnergies _ hp]

/-- The best position is the peak among those that qualify. -/
theorem bestPosition_eq_some_iff {p : Nat} : bestPosition (segEnergies shadow span) ok = some p ↔
    IsPeak span (positionEnergy shadow) (ok · = true) p := by
  have hbest := bestBelow_bestPosition (segEnergies shadow span) ok
  cases h : bestPosition (segEnergies shadow span) ok with
  | none =>
    rw [h] at hbest
    refine iff_of_false nofun fun hp => ?_
    exact hbest p (hp.1.trans_eq (segEnergies_length ..).symm) hp.2.1
  | some q =>
    rw [h] at hbest
    have hq := isPeak_segEnergies.1 hbest
    exact ⟨fun he => Option.some.inj he ▸ hq, fun hp => congrArg some (hq.unique hp)⟩

/-- A position that qualifies gives a peak. -/
theorem exists_peak {q : Nat} (hq : q < span) (hok : ok q = true) :
    ∃ p, bestPosition (segEnergies shadow span) ok = some p := by
  have hbest := bestBelow_bestPosition (segEnergies shadow span) ok
  cases h : bestPosition (segEnergies shadow span) ok with
  | some p => exact ⟨p, rfl⟩
  | none =>
    rw [h] at hbest
    exact absurd hok (hbest q (hq.trans_eq (segEnergies_length ..).symm))

end

/-! ### The windows (R121, R123) -/

/-- The base of the window of length `w` placed for position `p` in a span: one position before it, a window of one position apart,
pulled back into the span. -/
def placedBase (span p w : Nat) : Nat :=
  if p - (if w = 1 then 0 else 1) + w ≤ span then p - (if w = 1 then 0 else 1) else span - w

/-- The limit of that window, at most the span's last position. -/
def placedLimit (span p w : Nat) : Nat := min (span - 1) (placedBase span p w + w - 1)

theorem placeWindow_eq {span w : Nat} (hspan : 1 ≤ span) (_ : 1 ≤ w) (p : Nat) :
    placeWindow p w span = (placedBase span p w, placedLimit span p w) := by
  have hbase : (if w = 1 then p else p - 1) = p - (if w = 1 then 0 else 1) := by split <;> rfl
  unfold placeWindow placedLimit placedBase
  dsimp only
  rw [hbase]
  generalize p - (if w = 1 then 0 else 1) = b
  by_cases hfits : b + w ≤ span
  · rw [if_neg (by omega), if_pos hfits, Nat.min_eq_right (by omega)]
  · rw [if_pos (by omega), if_neg hfits]

/-- The placed window holds its position. -/
theorem placed_holds {span p w : Nat} (hp : p < span) (_ : 1 ≤ w) : placedBase span p w ≤ p ∧ p ≤ placedLimit span p w := by
  unfold placedLimit placedBase
  by_cases h1 : w = 1
  · subst h1
    rw [if_pos rfl, if_pos (by omega)]
    omega
  · rw [if_neg h1]
    split <;> omega

/-- Two windows in order of base, one window where the gap between them is under two segments. -/
theorem mergeWindows_eq (x y : Nat × Nat) : mergeWindows x y =
    if max x.1 y.1 ≤ (if y.1 < x.1 then y.2 else x.2) + 2 then ((min x.1 y.1, max x.2 y.2), none)
    else ((min x.1 y.1, if y.1 < x.1 then y.2 else x.2), some (max x.1 y.1, if y.1 < x.1 then x.2 else y.2)) := by
  unfold mergeWindows
  by_cases h : y.1 < x.1
  · simp only [h, if_true, Nat.max_eq_left h.le, Nat.min_eq_right h.le, Nat.max_comm x.2]
  · simp only [h, if_false, Nat.max_eq_right (Nat.le_of_not_lt h), Nat.min_eq_left (Nat.le_of_not_lt h)]

/-! ### The evaluation (R120, R122) -/

/-- The second window is looked for two positions clear of the first. -/
def clearOf (w : Nat × Nat) (q : Nat) : Bool := q + 2 ≤ w.1 || w.2 + 2 ≤ q

/-- The second peak, where the profile asks for two windows. -/
def secondPeak (b : BindFields) (shadow : List Coeff) (span p : Nat) : Option Nat :=
  if b.twoWindows then bestPosition (segEnergies shadow span) (clearOf (placeWindow p b.w0 span)) else none

theorem secondPeak_eq_some_iff {b : BindFields} {shadow : List Coeff} {span p q : Nat} : secondPeak b shadow span p = some q ↔
    b.twoWindows = true ∧ IsPeak span (positionEnergy shadow) (clearOf (placeWindow p b.w0 span) · = true) q := by
  rw [secondPeak, Option.ite_none_right_eq_some, bestPosition_eq_some_iff]

theorem clearOf_iff (w : Nat × Nat) (q : Nat) : clearOf w q = true ↔ q + 2 ≤ w.1 ∨ w.2 + 2 ≤ q := by simp [clearOf]

section
variable {b : BindFields} {shadow : List Coeff} {span p : Nat}
  (hp : IsPeak span (positionEnergy shadow) (fun _ => True) p)
include hp

theorem bestPosition_of_peak : bestPosition (segEnergies shadow span) (fun _ => true) = some p :=
  bestPosition_eq_some_iff.2 (by simpa using hp)

theorem evaluate_of_weak (hweak : positionEnergy shadow p < 1048576) : evaluate b shadow span = none := by
  have hpeak := bestPosition_of_peak hp
  simp only [evaluate, hpeak, getD_segEnergies shadow hp.1, hweak, if_true]

/-- A peak of enough energy with no second one: its window alone. -/
theorem evaluate_of_no_second (hstrong : 1048576 ≤ positionEnergy shadow p) (hsecond : secondPeak b shadow span p = none) :
    evaluate b shadow span = some (placeOf (placeWindow p b.w0 span), none) := by
  have hpeak := bestPosition_of_peak hp
  simp only [evaluate, hpeak, getD_segEnergies shadow hp.1, if_neg (Nat.not_lt.2 hstrong)]
  split
  · rfl
  · next q hq => exact absurd (hsecond.symm.trans hq) nofun

/-- A second peak is accepted when its energy is at least a quarter of the first's (R122). -/
theorem evaluate_of_second (hstrong : 1048576 ≤ positionEnergy shadow p) {q : Nat} (hsecond : secondPeak b shadow span p = some q) :
    evaluate b shadow span = if positionEnergy shadow p ≤ 4 * (segEnergies shadow span).getD q 0 then
        some (placeOf (mergeWindows (placeWindow p b.w0 span) (placeWindow q b.w1 span)).1,
          (mergeWindows (placeWindow p b.w0 span) (placeWindow q b.w1 span)).2.map placeOf)
      else some (placeOf (placeWindow p b.w0 span), none) := by
  have hpeak := bestPosition_of_peak hp
  simp only [evaluate, hpeak, getD_segEnergies shadow hp.1, if_neg (Nat.not_lt.2 hstrong)]
  split
  · next hq => exact absurd (hsecond.symm.trans hq) nofun
  · next x hx =>
    obtain rfl : q = x := Option.some.inj (hsecond.symm.trans hx)
    rfl

/-- No second peak is accepted: the peak window alone. -/
theorem evaluate_single (hstrong : 1048576 ≤ positionEnergy shadow p)
    (hsecond : b.twoWindows = false ∨ ∀ q, q < span → clearOf (placeWindow p b.w0 span) q = true →
      4 * positionEnergy shadow q < positionEnergy shadow p) :
    evaluate b shadow span = some (placeOf (placeWindow p b.w0 span), none) := by
  cases hq : secondPeak b shadow span p with
  | none => exact evaluate_of_no_second hp hstrong hq
  | some q =>
    obtain ⟨htwo, hlt, hclear, _⟩ := secondPeak_eq_some_iff.1 hq
    have hweak := hsecond.resolve_left (by simp [htwo]) q hlt hclear
    rw [evaluate_of_second hp hstrong hq, getD_segEnergies shadow hlt, if_neg (Nat.not_le.2 hweak)]

/-- A second peak accepted: both windows, in order and merged (R123). -/
theorem evaluate_second (hstrong : 1048576 ≤ positionEnergy shadow p) (htwo : b.twoWindows = true) {q : Nat}
    (hq : IsPeak span (positionEnergy shadow) (clearOf (placeWindow p b.w0 span) · = true) q)
    (haccept : positionEnergy shadow p ≤ 4 * positionEnergy shadow q) :
    evaluate b shadow span = some (placeOf (mergeWindows (placeWindow p b.w0 span) (placeWindow q b.w1 span)).1,
      (mergeWindows (placeWindow p b.w0 span) (placeWindow q b.w1 span)).2.map placeOf) := by
  rw [evaluate_of_second hp hstrong (secondPeak_eq_some_iff.2 ⟨htwo, hq⟩), getD_segEnergies shadow hq.1, if_pos haccept]

end

theorem evaluate_eq_none_iff (b : BindFields) (shadow : List Coeff) {span : Nat} (hspan : 1 ≤ span) :
    evaluate b shadow span = none ↔ ∀ p, p < span → positionEnergy shadow p < 1048576 := by
  obtain ⟨p, hbest⟩ := exists_peak (shadow := shadow) (ok := fun _ => true) hspan rfl
  have hp : IsPeak span (positionEnergy shadow) (fun _ => True) p := by simpa using bestPosition_eq_some_iff.1 hbest
  have ⟨hlt, _, hmax, _⟩ := hp
  constructor
  · intro hnone q hq
    by_contra hstrong
    have hstrong : 1048576 ≤ positionEnergy shadow p := (Nat.le_of_not_lt hstrong).trans (hmax q hq trivial)
    cases hsecond : secondPeak b shadow span p with
    | none => exact absurd ((evaluate_of_no_second hp hstrong hsecond).symm.trans hnone) nofun
    | some x =>
      rw [evaluate_of_second hp hstrong hsecond] at hnone
      split at hnone <;> cases hnone
  · exact fun hweak => evaluate_of_weak hp (hweak p hlt)

/-- Settles O28: by the peak, and by the second peak where one is accepted. -/
theorem evaluation : Obligations.Evaluation := by
  intro b shadow span hspan _ hw0 hw1 en peakOf base limit clear
  refine ⟨evaluate_eq_none_iff b shadow hspan, fun p hp hstrong => ?_⟩
  have hp : IsPeak span (positionEnergy shadow) (fun _ => True) p := hp
  have hfirst : placeWindow p b.w0 span = (base p b.w0, limit p b.w0) := placeWindow_eq hspan hw0 p
  have hclear : ∀ q, clearOf (placeWindow p b.w0 span) q = true ↔ clear p q := fun q => by rw [clearOf_iff, hfirst]
  obtain ⟨hbase, hlimit⟩ := placed_holds hp.1 hw0
  refine ⟨hbase, hlimit, fun hsecond => ?_, fun q htwo hq haccept => ?_⟩
  · rw [evaluate_single hp hstrong (hsecond.imp_right fun h q hq hc => h q hq ((hclear q).1 hc)), hfirst]
    rfl
  · intro b1 b2 l1 l2
    have hq : IsPeak span (positionEnergy shadow) (clearOf (placeWindow p b.w0 span) · = true) q := by
      simp only [hclear]
      exact hq
    have hother : placeWindow q b.w1 span = (base q b.w1, limit q b.w1) := placeWindow_eq hspan hw1 q
    rw [evaluate_second hp hstrong htwo hq haccept, hfirst, hother, mergeWindows_eq]
    have hmax : max l1 l2 = max (limit p b.w0) (limit q b.w1) := by
      dsimp only [l1, l2]
      split
      · exact Nat.max_comm ..
      · rfl
    rw [hmax]
    by_cases hgap : b2 ≤ l1 + 2
    · rw [if_pos hgap, if_pos hgap]
      rfl
    · rw [if_neg hgap, if_neg hgap]
      rfl

end Sys2Proof.WindowSearch


/-! PROOFS. The tone detector: the changes of the sub-state by TONE_ENTRY, RELEASE and WINDOW_END, and the end of a window (R145 to
R152); O25, O26. -/

namespace Sys2Proof.ToneDetection

open Sys2Proof Sys2Proof.Machine Sys2Proof.TapSegments Sys2Proof.FrameTiming Sys2Proof.EchoAdaptation

/-! ### The change of a sub-state (R152) -/

/-- The record with its sub-state moved and its release count at 0 (R152), its notices not yet written. -/
def toSub (new : ToneSub) (r : Record) : Record := { r with tone := { r.tone with sub := new, release := 0 } }

theorem changeTone_eq {s : State} {c : Nat} {r : Record} (hr : s.rec? c = some r) (new : ToneSub) :
    changeTone new c s = writeDetail c (.tone r.tone.sub new s.stamp) (raise .tone c (s.setRec c (toSub new r))) := by
  simp only [changeTone, hr, toSub]

theorem changeTone_setRec (new : ToneSub) (c : Nat) (r : Record) (s : State) :
    changeTone new c (s.setRec c r) =
      writeDetail c (.tone r.tone.sub new s.stamp) (raise .tone c (s.setRec c (toSub new r))) := by
  rw [changeTone_eq (rec?_setRec_same c r s), setRec_setRec]
  rfl

theorem writeDetail_setRec (c : Nat) (x : Detail) (r : Record) (s : State) (a b : AlertLine) :
    writeDetail c x { s.setRec c r with lineA := a, lineB := b } =
      { s.setRec c { r with notes := withDetail s.settings.policy x r.notes } with lineA := a, lineB := b } := by
  have hr : ({ s.setRec c r with lineA := a, lineB := b } : State).rec? c = some r := rec?_setRec_same c r s
  rw [writeDetail, modRec_eq hr, detailInto_eq_withDetail]
  exact congrArg (fun v : State => { v with lineA := a, lineB := b }) (setRec_setRec ..)

/-- A row whose event writes a record, raises TONE and writes a detail record: one record and the lines move, and the event is no
longer due (R152, R180, R181). -/
theorem takes_rowOf_of_toneNotice {e : DueEvent} {s : State} (hdue : e ∈ s.due) {c : Nat} {q : Record} {x : Detail}
    (hevent : takeEvent e { s with due := s.due.erase e } =
      writeDetail c x (raise .tone c ({ s with due := s.due.erase e }.setRec c q))) :
    ∃ t, takes (rowOf e) s t ∧
      t.rec? c = some { q with notes := withDetail s.settings.policy x (withKind .tone q.notes) } ∧
      t.due = s.due.erase e ∧ pulses (!hasKind q.notes.kinds .tone) (routeOf q.notes.routing .tone) s t ∧
      othersKept c s t ∧ t.queue = s.queue ∧ t.units = s.units ∧ onlyRecords s t := by
  let w : State := { s with due := s.due.erase e }
  obtain ⟨⟨a, b, hraise⟩, hpulses⟩ := raise_setRec .tone c q w
  rw [hraise] at hpulses
  have hwritten := (congrArg (writeDetail c x) hraise).trans (writeDetail_setRec ..)
  exact ⟨_, takes_rowOf_of_mem hdue (hevent.trans hwritten), rec?_setRec_same _ _ w, rfl, hpulses,
    fun d hd => rec?_setRec_other hd _ w, rfl, rfl, rfl⟩

/-! ### TONE_ENTRY, RELEASE and a WINDOW_END with tone detection off -/

/-- The record whose tone group and convergence run a release clears (R150, R151). -/
def releasedRecord (r : Record) : Record := { r with tone := clearTone r.tone, conv := { r.conv with run := 0 } }

section
variable {s : State} {c : Nat} {r : Record} (hr : s.rec? c = some r)
include hr

theorem takeToneEntry_of_none (hsub : r.tone.sub = .none) :
    takeToneEntry c s = changeTone (if r.tone.reversal then .bypass else .nlpOff) c s := by
  simp only [takeToneEntry, hr, hsub, if_true]

theorem takeRelease_of_ne_none (hsub : r.tone.sub ≠ .none) :
    takeRelease c s = changeTone .none c (s.setRec c (releasedRecord r)) := by
  simp only [takeRelease, hr, hsub, if_false, releasedRecord]

theorem takeWindowEnd_of_enabled (hon : (s.profileOf r).toneEnable = true) :
    takeWindowEnd c s = windowEndOn (s.profileOf r) c r s := by
  simp only [takeWindowEnd, hr, hon, if_true]

theorem takeWindowEnd_of_disabled (hoff : (s.profileOf r).toneEnable = false) : takeWindowEnd c s =
    if r.tone.sub = .none then s.setRec c { r with tone := clearTone r.tone }
    else changeTone .none c (s.setRec c (releasedRecord r)) := by
  simp only [takeWindowEnd, hr, hoff, Bool.false_eq_true, if_false, windowEndOff, releasedRecord]

end

/-- Settles O26: each change of sub-state is TONE raised and a detail record written on a record just left. -/
theorem toneSubStates : Obligations.ToneSubStates := by
  intro s c r hr silent cleared changed released
  refine ⟨fun hdue hsub => ?_, fun hdue hsub => ?_, fun hdue hoff => ⟨fun hsub => ?_, fun hsub => ?_⟩⟩
  · let w : State := { s with due := s.due.erase (.toneEntry c) }
    have hr : w.rec? c = some r := hr
    exact takes_rowOf_of_toneNotice hdue ((takeToneEntry_of_none hr hsub).trans (changeTone_eq hr _))
  · let w : State := { s with due := s.due.erase (.release c) }
    have hr : w.rec? c = some r := hr
    exact takes_rowOf_of_toneNotice hdue ((takeRelease_of_ne_none hr hsub).trans (changeTone_setRec ..))
  · let w : State := { s with due := s.due.erase (.windowEnd c) }
    have hevent := (takeWindowEnd_of_disabled (s := w) hr hoff).trans (if_neg hsub)
    exact takes_rowOf_of_toneNotice hdue (hevent.trans (changeTone_setRec ..))
  · let w : State := { s with due := s.due.erase (.windowEnd c) }
    have hevent := (takeWindowEnd_of_disabled (s := w) hr hoff).trans (if_pos hsub)
    have hcleared : clearTone r.tone = cleared := by rw [clearTone, hsub]; rfl
    rw [hcleared] at hevent
    exact takes_rowOf_of_mem hdue hevent

/-! ### The window's result in one direction (R145 to R147) -/

theorem tonal_eq (wMin : Nat) (d : ToneDir) : tonal wMin d = (decide (wMin ≤ d.energy) &&
    decide (20 * (d.energy : Int) ≤ d.acc1 ^ 2 + d.acc2 ^ 2 - (-2571 * d.acc1 * d.acc2) / 16384)) := by
  rw [tonal, tonePower, pow_two, pow_two]

theorem runEnd_eq (wMin : Nat) (d : ToneDir) : runEnd wMin d = {
    acc1 := 0, acc2 := 0, energy := 0
    run := if tonal wMin d then min 30 (d.run + 1) else if d.gap = 1 then 0 else d.run
    gap := if tonal wMin d then 0 else min 2 (d.gap + 1)
    prev := if tonal wMin d then some (d.acc1, d.acc2) else d.prev } := by
  unfold runEnd
  cases tonal wMin d <;> rfl

/-! ### A WINDOW_END with tone detection on (R148 to R150) -/

/-- A reversal is seen in either direction (R147). -/
def reversalSeen (wMin : Nat) (t : ToneGroup) : Bool := reverses wMin t.rx || reverses wMin t.tx

/-- The release count after a window in NLP_OFF or BYPASS (R150). -/
def releaseCount (wRel : Nat) (t : ToneGroup) : Nat := if quietWindow wRel t then min 25 (t.release + 1) else 0

/-- The tone group after a window that leaves the sub-state: in NONE the release count stays (R146, R147, R150). -/
def windowedTone (p : Profile) (t : ToneGroup) : ToneGroup :=
  { windowRuns p.wMin t with release := if t.sub = .none then t.release else releaseCount p.wRel t }

/-- What a window that leaves the sub-state makes due: the entry from NONE, or the release (R148, R150). -/
def windowDue (p : Profile) (c : Nat) (t : ToneGroup) : List DueEvent :=
  if t.sub = .none then
    if (windowRuns p.wMin t).rx.run = 30 ∨ (windowRuns p.wMin t).tx.run = 30 then [.toneEntry c] else []
  else if releaseCount p.wRel t = 25 then [.release c] else []

section
variable (p : Profile) (c : Nat) (r : Record) (s : State)

theorem windowEndOn_of_reversal (hsub : r.tone.sub = .nlpOff) (hseen : reversalSeen p.wMin r.tone = true) :
    windowEndOn p c r s = writeDetail c (.tone .nlpOff .bypass s.stamp)
      (raise .tone c (s.setRec c (toSub .bypass { r with tone := windowRuns p.wMin r.tone }))) := by
  have hseen : (reverses p.wMin r.tone.rx || reverses p.wMin r.tone.tx) = true := hseen
  have hold : (windowRuns p.wMin r.tone).sub = .nlpOff := hsub
  simp only [windowEndOn, hsub, hseen, if_true, changeTone_setRec, hold]

theorem countRelease_eq (hsub : r.tone.sub ≠ .none) : windowEndOn.countRelease p c r s (windowRuns p.wMin r.tone) =
    { s.setRec c { r with tone := windowedTone p r.tone } with due := s.due ++ windowDue p c r.tone } := by
  have hcount : (if quietWindow p.wRel r.tone then min 25 ((windowRuns p.wMin r.tone).release + 1) else 0) =
    releaseCount p.wRel r.tone := rfl
  simp only [windowEndOn.countRelease, hcount, windowedTone, windowDue, if_neg hsub]
  split
  · rfl
  · rw [List.append_nil]
    rfl

theorem windowEndOn_of_kept (hkept : ¬(r.tone.sub = .nlpOff ∧ reversalSeen p.wMin r.tone = true)) : windowEndOn p c r s =
    { s.setRec c { r with tone := windowedTone p r.tone } with due := s.due ++ windowDue p c r.tone } := by
  cases hsub : r.tone.sub with
  | none =>
    have htone : windowedTone p r.tone = windowRuns p.wMin r.tone := by
      rw [windowedTone, if_pos hsub]
      rfl
    by_cases hrun : (windowRuns p.wMin r.tone).rx.run = 30 ∨ (windowRuns p.wMin r.tone).tx.run = 30
    · simp only [windowEndOn, hsub, htone, windowDue, hrun, if_true]
      rfl
    · simp only [windowEndOn, hsub, htone, windowDue, hrun, if_true, if_false, List.append_nil]
      rfl
  | nlpOff =>
    have hseen : (reverses p.wMin r.tone.rx || reverses p.wMin r.tone.tx) = false :=
      Bool.eq_false_iff.2 fun h => hkept ⟨hsub, h⟩
    have hcount := countRelease_eq p c r s (by rw [hsub]; nofun)
    simpa only [windowEndOn, hsub, hseen, Bool.false_eq_true, if_false] using hcount
  | bypass =>
    have hcount := countRelease_eq p c r s (by rw [hsub]; nofun)
    simpa only [windowEndOn, hsub] using hcount

end

/-- Settles O25: by whether a reversal takes the record from NLP_OFF to BYPASS. -/
theorem windowEnd : Obligations.WindowEnd := by
  intro s c r hdue hr hon f isTonal seen ends next quiet reversal toBypass count
  have htonal : ∀ d, isTonal d = tonal f.wMin d := fun d => (tonal_eq f.wMin d).symm
  have hnext : ∀ d, next d = runEnd f.wMin d := fun d => by simp only [next, htonal, runEnd_eq]
  have hends : ∀ d, ends d = runEnds f.wMin d := fun d => by simp only [ends, htonal, runEnds]
  have hseen : ∀ d, seen d = reverses f.wMin d := fun d => by
    simp only [seen, htonal, reverses]
    cases d.prev <;> rfl
  have hreversal : reversal = reversalSeen f.wMin r.tone := by simp only [reversal, hseen, reversalSeen]
  have hcount : count = releaseCount f.wRel r.tone := by simp [count, quiet, releaseCount, quietWindow]
  let w : State := { s with due := s.due.erase (.windowEnd c) }
  have hevent : takeEvent (.windowEnd c) w = windowEndOn f c r w := takeWindowEnd_of_enabled hr hon
  simp only [hnext, hends, hcount, hreversal]
  by_cases hto : toBypass
  · have ⟨hsub, hrev⟩ : r.tone.sub = .nlpOff ∧ reversal = true := hto
    have hchange := windowEndOn_of_reversal f c r w hsub (hreversal ▸ hrev)
    obtain ⟨t, htakes, hrec, htdue, hpulses, hframe⟩ := takes_rowOf_of_toneNotice hdue (hevent.trans hchange)
    refine ⟨t, htakes, ?_, ?_, ?_, hframe⟩
    · simp only [hto, if_true]
      exact hrec
    · simpa [hto, hsub] using htdue
    · simp only [hto, decide_true, Bool.true_and]
      exact hpulses
  · have hkept := windowEndOn_of_kept f c r w (hreversal ▸ hto)
    refine ⟨_, takes_rowOf_of_mem hdue (hevent.trans hkept), ?_, ?_, ?_, fun d hd => rec?_setRec_other hd _ w, rfl, rfl, rfl⟩
    · simp only [hto, if_false]
      exact rec?_setRec_same _ _ w
    · refine congrArg (s.due.erase (.windowEnd c) ++ ·) ?_
      unfold windowDue
      by_cases hsub : r.tone.sub = .none
      · simp only [hsub, true_and, if_true, ne_eq, not_true, false_and, if_false]
        rfl
      · simp only [hsub, hto, ne_eq, not_false_iff, true_and, false_and, if_false]
    · simp only [hto, decide_false, Bool.false_and]
      exact pulses_not_fresh s _

end Sys2Proof.ToneDetection


/-! PROOFS. The ranges of profiles and gains: what a profile in range does to a gain (R156, R161), and the changes that keep every
profile and every gain in range and every record on one of the sixteen profiles (R155, R165 to R167). -/

namespace Sys2Proof.ProfilesAndGains

open Sys2Proof Sys2Proof.Machine

/-! ### Level fields in range (R155, R167) -/

theorem clampNat_mem {lo hi : Nat} (h : lo ≤ hi) (v : Nat) : lo ≤ clampNat v lo hi ∧ clampNat v lo hi ≤ hi := by
  unfold clampNat
  split
  · omega
  · split <;> omega

theorem levelFits_iff {f : LevelFields} :
    levelFits f = true ↔ f.target ≤ 32767 ∧ f.gmax ≤ 32767 ∧ f.gmin ≤ f.g0 ∧ f.g0 ≤ f.gmax := by
  simp [levelFits, and_assoc]

theorem levelFits_of_profileFits {p : Profile} (h : profileFits p = true) : levelFits p.rx = true ∧ levelFits p.tx = true := by
  simp only [profileFits, Bool.and_eq_true] at h
  obtain ⟨⟨⟨⟨_, hrx⟩, htx⟩, _⟩, _⟩ := h
  exact ⟨hrx, htx⟩

section
variable {f : LevelFields} (hf : levelFits f = true)
include hf

/-- An adjusted gain stays between Gmin and Gmax where it moves towards them (R161). -/
theorem levelEnd_gain_le {l : LevelDir} (hl : l.gain ≤ 32767) (d : Dir) (g : GateState) (sub : ToneSub) :
    (levelEnd f d g sub l).gain ≤ 32767 := by
  obtain ⟨_, hgmax, hmin, hmax⟩ := levelFits_iff.1 hf
  rw [ResidualProcessing.levelEnd_eq]
  dsimp only
  split
  · omega
  · split
    · omega
    · exact hl

theorem followFixed_gain_le {l : LevelDir} (hl : l.gain ≤ 32767) : (followFixed f l).gain ≤ 32767 := by
  obtain ⟨_, hgmax, _, hmax⟩ := levelFits_iff.1 hf
  unfold followFixed
  cases f.mode with
  | fixed => exact hmax.trans hgmax
  | auto => exact hl

theorem bindLevel_gain_le : (bindLevel f).gain ≤ 32767 := by
  obtain ⟨_, hgmax, hmin, hmax⟩ := levelFits_iff.1 hf
  exact (clampNat_mem (hmin.trans hmax) f.g0).2.trans hgmax

end

/-! ### SET PROFILE stores fields in range (R169, R170) -/

theorem clamp15_le (w : BitVec 16) : clamp15 w ≤ 32767 := Nat.min_le_left ..

theorem levelFits_storedLevel (mode : LevelMode) {l : LevelMsg} (h : limitsOk l = true) :
    levelFits (storedLevel mode l) = true := by
  have hlimits : clamp15 l.gmin ≤ clamp15 l.gmax := by simpa [limitsOk] using h
  obtain ⟨hmin, hmax⟩ := clampNat_mem hlimits (clamp15 l.g0)
  exact levelFits_iff.2 ⟨clamp15_le _, clamp15_le _, hmin, hmax⟩

/-- The selector passes R169's checks; every other field is clamped into its range (R170). -/
theorem profileFits_storedProfile {f : ProfileMsg} (hsel : selectorOk f = true) (hrx : limitsOk f.rx = true)
    (htx : limitsOk f.tx = true) (nlp : NlpMode) (rx tx : LevelMode) (n : Nat) :
    profileFits (storedProfile f nlp rx tx n) = true := by
  have hsegs : ∀ b : Byte, 1 ≤ clampSegs b ∧ clampSegs b ≤ 64 := fun b => clampNat_mem (by decide) _
  have hmu : ∀ b : Byte, 1 ≤ clampMu b ∧ clampMu b ≤ 255 := fun b =>
    ⟨Nat.le_max_left .., Nat.max_le.2 ⟨by decide, Nat.le_of_lt_succ b.isLt⟩⟩
  have hdelta := clampNat_mem (lo := 1) (hi := 16777216) (by decide) f.delta.toNat
  have h15 := clamp15_le
  have hword : ∀ w : BitVec 32, w.toNat ≤ 4294967295 := fun w => Nat.le_of_lt_succ w.isLt
  have hnibble : ∀ w : BitVec 4, w.toNat % 256 = w.toNat := fun w => Nat.mod_eq_of_lt (w.isLt.trans (by decide))
  have hrxFits := levelFits_storedLevel rx hrx
  have htxFits := levelFits_storedLevel tx htx
  simp only [selectorOk, Bool.and_eq_true, decide_eq_true_eq] at hsel
  obtain ⟨⟨⟨hhw, hhwMask⟩, hslot⟩, hslotMask⟩ := hsel
  simp [profileFits, storedProfile, storedBind, hhw, hhwMask, hslot, hslotMask, hsegs, hmu, hdelta, h15, hrxFits, htxFits, hword,
    hnibble]

/-! ### Profiles, records, numbers -/

/-- The record's gains are in range (R155). -/
def GainsFit (r : Record) : Prop := r.lev.rx.gain ≤ 32767 ∧ r.lev.tx.gain ≤ 32767

/-- Every profile is in range (R166, R167). -/
def ProfilesFit (s : State) : Prop := ∀ e ∈ s.profiles, profileFits e.2 = true

/-- Every record's gains are in range. -/
def RecordsFit (s : State) : Prop := ∀ e ∈ s.ctxs, GainsFit e.2

/-- The profiles are the sixteen of R165, and every record names one of them. -/
def ProfilesNamed (s : State) : Prop :=
  s.profiles.map (·.1) = List.range nProfiles ∧ ∀ e ∈ s.ctxs, e.2.id.profile < nProfiles

theorem profilesSafe_iff {s : State} :
    profilesSafe s = true ↔ s.profiles.map (·.1) = List.range nProfiles ∧ ProfilesFit s := by
  simp [profilesSafe, ProfilesFit]

theorem gainsSafe_iff {s : State} : gainsSafe s = true ↔ RecordsFit s := by
  simp [gainsSafe, RecordsFit, GainsFit]

theorem profile_lt_of_usesSafe {s : State} (h : usesSafe s = true) : ∀ e ∈ s.ctxs, e.2.id.profile < nProfiles := by
  simp only [usesSafe, Bool.and_eq_true, List.all_eq_true, decide_eq_true_eq] at h
  obtain ⟨⟨_, hnamed⟩, _⟩ := h
  exact hnamed

/-- A number without an entry stands for the profile of power-on, which is in range too. -/
theorem ProfilesFit.profile {s : State} (h : ProfilesFit s) (p : Nat) : profileFits (s.profile p) = true := by
  unfold State.profile
  cases hp : tget p s.profiles with
  | none => decide
  | some f => exact h (p, f) (mem_of_tget hp)

/-- An entry made anew where a number had one leaves the numbers of a rising table. -/
theorem map_fst_tset {α : Type} {k : Nat} (v : α) {m : List (Nat × α)} (hm : (m.map (·.1)).Pairwise (· < ·))
    (hk : k ∈ m.map (·.1)) : (tset k v m).map (·.1) = m.map (·.1) := by
  induction m with
  | nil => cases hk
  | cons e t ih =>
    obtain ⟨j, w⟩ := e
    obtain ⟨hlt, ht⟩ := List.pairwise_cons.1 hm
    rcases List.mem_cons.1 hk with rfl | hk
    · simp [tset]
    · have hjk : j < k := hlt k hk
      simp only [tset, if_neg (Nat.lt_asymm hjk), if_neg (Nat.ne_of_lt hjk), List.map_cons, ih ht hk]

/-! ### Changes that keep them -/

/-- From `s` to `t` profiles and gains stay in range, and records stay on the sixteen profiles. -/
def KeepsFit (s t : State) : Prop :=
  (ProfilesFit s → ProfilesFit t) ∧ (ProfilesFit s → RecordsFit s → RecordsFit t) ∧ (ProfilesNamed s → ProfilesNamed t)

/-- What of a record the ranges are about: the profile it names and its gains. -/
def tuning (r : Record) : Nat × Nat × Nat := (r.id.profile, r.lev.rx.gain, r.lev.tx.gain)

theorem profile_of_tuning {r q : Record} (h : tuning q = tuning r) : q.id.profile = r.id.profile := congrArg (·.1) h

theorem GainsFit.of_tuning {r q : Record} (hr : GainsFit r) (h : tuning q = tuning r) : GainsFit q := by
  obtain ⟨_, hgains⟩ := Prod.mk.inj h
  obtain ⟨hrx, htx⟩ := Prod.mk.inj hgains
  exact ⟨hrx.trans_le hr.1, htx.trans_le hr.2⟩

namespace KeepsFit

variable {s t : State}

theorem profiles (h : KeepsFit s t) : ProfilesFit s → ProfilesFit t := h.1

theorem gains (h : KeepsFit s t) : ProfilesFit s → RecordsFit s → RecordsFit t := h.2.1

theorem named (h : KeepsFit s t) : ProfilesNamed s → ProfilesNamed t := h.2.2

theorem refl (s : State) : KeepsFit s s := ⟨id, fun _ => id, id⟩

theorem trans {u : State} (h : KeepsFit s t) (k : KeepsFit t u) : KeepsFit s u :=
  ⟨k.profiles ∘ h.profiles, fun hp hr => k.gains (h.profiles hp) (h.gains hp hr), k.named ∘ h.named⟩

theorem foldl {α : Type} {f : State → α → State} (hf : ∀ x a, KeepsFit x (f x a)) (l : List α) (s : State) :
    KeepsFit s (l.foldl f s) := by
  induction l generalizing s with
  | nil => exact refl s
  | cons a l ih => exact (hf s a).trans (ih _)

/-- The profiles left alone: it is the records that have to stay in range and named. -/
theorem of_records (hp : t.profiles = s.profiles) (hg : ProfilesFit s → RecordsFit s → RecordsFit t)
    (hn : ProfilesNamed s → ∀ e ∈ t.ctxs, e.2.id.profile < nProfiles) : KeepsFit s t :=
  ⟨fun h e he => h e (hp ▸ he), hg, fun h => ⟨by rw [hp]; exact h.1, hn h⟩⟩

/-- Records removed, none put in. -/
theorem of_subset (hc : t.ctxs ⊆ s.ctxs) (hp : t.profiles = s.profiles) : KeepsFit s t :=
  of_records hp (fun _ h e he => h e (hc he)) fun h e he => h.2 e (hc he)

theorem of_eq (hc : t.ctxs = s.ctxs) (hp : t.profiles = s.profiles) : KeepsFit s t :=
  of_subset (hc ▸ List.Subset.refl _) hp

/-- A record in range and on one of the profiles put into the table. -/
theorem put {c : Nat} {q : Record} (hc : t.ctxs = tset c q s.ctxs) (hp : t.profiles = s.profiles)
    (hg : ProfilesFit s → RecordsFit s → GainsFit q) (hn : ProfilesNamed s → q.id.profile < nProfiles) : KeepsFit s t := by
  refine of_records hp (fun h hr e he => ?_) (fun h e he => ?_) <;> rw [hc] at he <;> rcases mem_tset he with rfl | he
  · exact hg h hr
  · exact hr e he
  · exact hn h
  · exact h.2 e he

/-- A record of the table made anew, its profile and gains kept, beside changes of other parts of the state. -/
theorem write_mem {c d : Nat} {r q : Record} (hr : (d, r) ∈ s.ctxs) (hc : t.ctxs = tset c q s.ctxs)
    (hp : t.profiles = s.profiles) (hq : tuning q = tuning r) : KeepsFit s t :=
  put hc hp (fun _ h => (h _ hr).of_tuning hq) fun h => profile_of_tuning hq ▸ h.2 _ hr

theorem write {c : Nat} {r q : Record} (hr : s.rec? c = some r) (hc : t.ctxs = tset c q s.ctxs)
    (hp : t.profiles = s.profiles) (hq : tuning q = tuning r) : KeepsFit s t :=
  write_mem (mem_of_tget hr) hc hp hq

theorem modRec {f : Record → Record} (hf : ∀ r, tuning (f r) = tuning r) (c : Nat) (s : State) : KeepsFit s (s.modRec c f) := by
  rcases modRec_cases c f s with ⟨_, h⟩ | ⟨r, hr, h⟩ <;> rw [h]
  · exact refl s
  · exact write hr rfl rfl (hf r)

/-- Every record made anew, on the profile it names, its gains kept in range. -/
theorem of_map (f : Nat → Record → Record) (hc : t.ctxs = s.ctxs.map fun e => (e.1, f e.1 e.2)) (hp : t.profiles = s.profiles)
    (hid : ∀ c r, (f c r).id = r.id) (hg : ProfilesFit s → ∀ c r, GainsFit r → GainsFit (f c r)) : KeepsFit s t := by
  refine of_records hp (fun h hr e he => ?_) (fun h e he => ?_) <;> rw [hc] at he <;> obtain ⟨d, hd, rfl⟩ := List.mem_map.1 he
  · exact hg h _ _ (hr d hd)
  · rw [hid]
    exact h.2 d hd

/-- A profile in range stored at one of the sixteen numbers. -/
theorem setProfile (h : KeepsFit s t) {p : Nat} {f : Profile} (hf : ProfilesFit s → profileFits f = true)
    (hp : ProfilesNamed s → p < nProfiles) : KeepsFit s (t.setProfile p f) := by
  refine ⟨fun hs e he => ?_, fun hs => h.gains hs, fun hs => ⟨?_, (h.named hs).2⟩⟩
  · rcases mem_tset he with rfl | he
    · exact hf hs
    · exact h.profiles hs e he
  · obtain ⟨hnumbers, _⟩ := h.named hs
    rw [State.setProfile_profiles, map_fst_tset f, hnumbers]
    · exact hnumbers ▸ List.pairwise_lt_range
    · exact hnumbers ▸ List.mem_range.2 (hp hs)

/-- An in-use count is no field that R166 or R167 bounds. -/
theorem useProfile (h : KeepsFit s t) {p : Nat} (hp : ProfilesNamed s → p < nProfiles) : KeepsFit s (Machine.useProfile p t) :=
  h.setProfile (fun hs => (h.profiles hs).profile p) hp

theorem unuseProfile (h : KeepsFit s t) {p : Nat} (hp : ProfilesNamed s → p < nProfiles) :
    KeepsFit s (Machine.unuseProfile p t) :=
  h.setProfile (fun hs => (h.profiles hs).profile p) hp

end KeepsFit

end Sys2Proof.ProfilesAndGains


/-! PROOFS. The operations and events of the part keep profiles and gains in range: only a block end and the start of a frame move
a gain, and none of them a profile (R156, R160, R161). -/

namespace Sys2Proof.ProfilesAndGains

open Sys2Proof Sys2Proof.Machine Sys2Proof.TapSegments Sys2Proof.FrameTiming

/-! ### Notices, searches, main states -/

theorem keepsFit_raise (k : Kind) (c : Nat) (s : State) : KeepsFit s (raise k c s) := by
  rcases raise_cases k c s with ⟨_, h⟩ | ⟨r, hr, ⟨_, h⟩ | ⟨_, h⟩⟩ <;> rw [h]
  · exact .refl s
  · exact .refl s
  · exact .write hr rfl rfl rfl

theorem keepsFit_writeDetail (c : Nat) (d : Detail) (s : State) : KeepsFit s (writeDetail c d s) := .modRec (by intro _; rfl) c s

theorem keepsFit_setLink (l : SearchLink) (c : Nat) (s : State) : KeepsFit s (setLink l c s) := .modRec (by intro _; rfl) c s

theorem keepsFit_startSearch (u c : Nat) (b : Bool) (s : State) : KeepsFit s (startSearch u c b s) := by
  rcases startSearch_cases u c b s with ⟨_, h⟩ | ⟨r, hr, h⟩ <;> rw [h]
  · exact .refl s
  · exact .write hr rfl rfl rfl

theorem keepsFit_freeUnit (u : Nat) (b : Bool) (s : State) : KeepsFit s (freeUnit u b s) := by
  have hidle : KeepsFit s { s with units := tdel u s.units } := .of_eq rfl rfl
  rcases freeUnit_cases u b s with ⟨_, h⟩ | ⟨c, _, _, h⟩ <;> rw [h]
  · exact hidle
  · exact hidle.trans (keepsFit_startSearch ..)

theorem keepsFit_endSearch (c : Nat) (b : Bool) (s : State) : KeepsFit s (endSearch c b s) := by
  rcases endSearch_cases c b s with ⟨_, h⟩ | ⟨r, _, ⟨_, h⟩ | ⟨_, h⟩ | ⟨u, _, h⟩⟩ <;> rw [h]
  · exact .refl s
  · exact .refl s
  · exact (keepsFit_setLink .none c s).trans (.of_eq rfl rfl)
  · exact (keepsFit_setLink .none c s).trans (keepsFit_freeUnit ..)

theorem keepsFit_requestSearch (c : Nat) (b : Bool) (s : State) : KeepsFit s (requestSearch c b s) := by
  rcases requestSearch_cases c b s with h | ⟨r, _, _, _, ⟨u, _, h⟩ | ⟨_, h⟩⟩ <;> rw [h]
  · exact .refl s
  · exact keepsFit_startSearch u c b s
  · exact (keepsFit_setLink .queued c s).trans (.of_eq rfl rfl)

theorem keepsFit_changeMain (m : MainState) (c : Nat) (b : Bool) (s : State) : KeepsFit s (changeMain m c b s) := by
  rcases changeMain_cases m c b s with ⟨_, h⟩ | ⟨r, hr, ⟨_, h⟩ | ⟨_, h⟩⟩ <;> rw [h]
  · exact .refl s
  · exact .refl s
  · have hset : KeepsFit s (s.setRec c (enterMain m r)) := .write hr rfl rfl rfl
    refine .trans ?_ (keepsFit_writeDetail ..)
    split
    · exact hset
    · exact hset.trans (keepsFit_endSearch ..)

theorem keepsFit_changeTone (x : ToneSub) (c : Nat) (s : State) : KeepsFit s (changeTone x c s) := by
  unfold changeTone
  cases hr : s.rec? c with
  | none => exact .refl s
  | some r =>
    have hset : KeepsFit s (s.setRec c { r with tone := { r.tone with sub := x, release := 0 } }) := .write hr rfl rfl rfl
    exact (hset.trans (keepsFit_raise ..)).trans (keepsFit_writeDetail ..)

theorem keepsFit_relocationEffects (c : Nat) (w : Windows) (b : Bool) (s : State) : KeepsFit s (relocationEffects c w b s) := by
  unfold relocationEffects
  cases hr : s.rec? c with
  | none => exact .refl s
  | some r =>
    dsimp only
    split
    · exact .refl s
    · cases r.main with
      | acquire | observe => exact .write hr rfl rfl rfl
      | track => exact keepsFit_changeMain ..
      | held | cut => exact .refl s

theorem keepsFit_relocate (c : Nat) (first : Place) (second : Option Place) (src : List Coeff) (s : State) :
    KeepsFit s (relocate c first second src s) := by
  unfold relocate
  cases hr : s.rec? c with
  | none => exact .refl s
  | some r =>
    dsimp only
    split <;> exact .write hr rfl rfl rfl

/-! ### The events of a boundary -/

theorem keepsFit_takeConvergence (c : Nat) (s : State) : KeepsFit s (takeConvergence c s) := by
  unfold takeConvergence
  cases hr : s.rec? c with
  | none => exact .refl s
  | some r =>
    dsimp only
    cases r.main with
    | acquire => exact (keepsFit_changeMain ..).trans (keepsFit_raise ..)
    | observe => exact .write hr rfl rfl rfl
    | track | held | cut => exact .refl s

theorem keepsFit_takeExpiry (c : Nat) (s : State) : KeepsFit s (takeExpiry c s) := by
  unfold takeExpiry
  cases hr : s.rec? c with
  | none => exact .refl s
  | some r =>
    have hset : ∀ n, KeepsFit s (s.setRec c { r with conv := { r.conv with deadline := 0, expiry := n } }) := fun n =>
      .write hr rfl rfl rfl
    dsimp only
    split
    · split
      · exact ((hset 1).trans (keepsFit_raise ..)).trans (keepsFit_requestSearch ..)
      · exact (hset 2).trans (keepsFit_raise ..)
      · exact .write hr rfl rfl rfl
    · exact .refl s

theorem keepsFit_takeCut (c : Nat) (s : State) : KeepsFit s (takeCut c s) := by
  unfold takeCut
  cases hr : s.rec? c with
  | none => exact .refl s
  | some r =>
    have hset : KeepsFit s { s.setRec c (cutFields r) with pool := zeroWindows s.pool r.wins } := .write hr rfl rfl rfl
    dsimp only
    split
    · exact (hset.trans (keepsFit_changeMain ..)).trans (keepsFit_raise ..)
    · exact .refl s

theorem keepsFit_takeRecovery (c : Nat) (s : State) : KeepsFit s (takeRecovery c s) := by
  unfold takeRecovery
  cases hr : s.rec? c with
  | none => exact .refl s
  | some r =>
    have hset : KeepsFit s (s.setRec c { r with div := soundGroup }) := .write hr rfl rfl rfl
    dsimp only
    split
    · cases (s.profileOf r).recovery with
      | auto => exact ((hset.trans (keepsFit_changeMain ..)).trans (keepsFit_requestSearch ..)).trans (keepsFit_raise ..)
      | holdAfter => exact (hset.trans (keepsFit_changeMain ..)).trans (keepsFit_raise ..)
      | stay | holdAtCut => exact .refl s
    · exact .refl s

/-- LEVEL sets a limit run to 0 and leaves the gain (R162). -/
theorem keepsFit_takeLevel (c : Nat) (d : Dir) (s : State) : KeepsFit s (takeLevel c d s) :=
  (KeepsFit.modRec (by intro _; cases d <;> rfl) c s).trans (keepsFit_raise ..)

theorem keepsFit_windowEndOff {c : Nat} {r : Record} {s : State} (hr : s.rec? c = some r) : KeepsFit s (windowEndOff c r s) := by
  unfold windowEndOff
  split
  · exact .write hr rfl rfl rfl
  · refine .trans ?_ (keepsFit_changeTone ..)
    exact .write hr rfl rfl rfl

theorem keepsFit_countRelease (p : Profile) {c : Nat} {r : Record} {s : State} (hr : s.rec? c = some r) (x : ToneGroup) :
    KeepsFit s (windowEndOn.countRelease p c r s x) := by
  unfold windowEndOn.countRelease
  generalize (if quietWindow p.wRel r.tone = true then min 25 (x.release + 1) else 0) = n
  dsimp only
  split <;> exact .write hr rfl rfl rfl

theorem keepsFit_windowEndOn (p : Profile) {c : Nat} {r : Record} {s : State} (hr : s.rec? c = some r) :
    KeepsFit s (windowEndOn p c r s) := by
  unfold windowEndOn
  cases r.tone.sub with
  | none =>
    dsimp only
    split <;> exact .write hr rfl rfl rfl
  | nlpOff =>
    dsimp only
    split
    · refine .trans ?_ (keepsFit_changeTone ..)
      exact .write hr rfl rfl rfl
    · exact keepsFit_countRelease p hr _
  | bypass => exact keepsFit_countRelease p hr _

theorem keepsFit_takeWindowEnd (c : Nat) (s : State) : KeepsFit s (takeWindowEnd c s) := by
  unfold takeWindowEnd
  cases hr : s.rec? c with
  | none => exact .refl s
  | some r =>
    dsimp only
    split
    · exact keepsFit_windowEndOn _ hr
    · exact keepsFit_windowEndOff hr

theorem keepsFit_takeToneEntry (c : Nat) (s : State) : KeepsFit s (takeToneEntry c s) := by
  unfold takeToneEntry
  cases s.rec? c with
  | none => exact .refl s
  | some r =>
    dsimp only
    split
    · exact keepsFit_changeTone ..
    · exact .refl s

theorem keepsFit_takeRelease (c : Nat) (s : State) : KeepsFit s (takeRelease c s) := by
  unfold takeRelease
  cases hr : s.rec? c with
  | none => exact .refl s
  | some r =>
    dsimp only
    split
    · exact .refl s
    · refine .trans ?_ (keepsFit_changeTone ..)
      exact .write hr rfl rfl rfl

theorem keepsFit_takeEvent (e : DueEvent) (s : State) : KeepsFit s (takeEvent e s) := by
  cases e with
  | convergence c => exact keepsFit_takeConvergence c s
  | expiry c => exact keepsFit_takeExpiry c s
  | cut c => exact keepsFit_takeCut c s
  | recovery c => exact keepsFit_takeRecovery c s
  | level c d => exact keepsFit_takeLevel c d s
  | noiseFloorRise c => exact .modRec (by intro _; rfl) c s
  | stampAdvance => exact .of_eq rfl rfl
  | windowEnd c => exact keepsFit_takeWindowEnd c s
  | toneEntry c => exact keepsFit_takeToneEntry c s
  | release c => exact keepsFit_takeRelease c s

theorem keepsFit_settle (s : State) : KeepsFit s (settle s) :=
  settle_induction (P := KeepsFit s) (fun _ h => h.trans (.of_eq rfl rfl))
    (fun e t h => h.trans (keepsFit_takeEvent e t)) (.refl s)

theorem keepsFit_takeDue (e : DueEvent) (s : State) : KeepsFit s (takeDue e s) := by
  have herased : KeepsFit s { s with due := s.due.erase e } := .of_eq rfl rfl
  unfold takeDue
  split
  · exact herased.trans (keepsFit_takeEvent ..)
  · exact .refl s

/-! ### The boundary -/

/-- A worked block end adjusts the gains by the record's profile; any other leaves them (R160, R161). -/
theorem gainsFit_recordEnd {p : Profile} (hp : profileFits p = true) (h : List Sample) {r : Record} (hr : GainsFit r) :
    GainsFit (recordEnd p h r) := by
  obtain ⟨hrx, htx⟩ := levelFits_of_profileFits hp
  unfold recordEnd
  split
  · exact ⟨levelEnd_gain_le hrx hr.1 .rx _ _, levelEnd_gain_le htx hr.2 .tx _ _⟩
  · split <;> exact hr

theorem keepsFit_measured (s : State) : KeepsFit s (measured s) :=
  .of_map (s.boundaryRecord s.selection) rfl rfl (fun _ _ => recordEnd_id ..) fun hp _ r hr =>
    gainsFit_recordEnd (hp.profile r.id.profile) (s.histOf r) hr

theorem keepsFit_blockBoundary (s : State) : KeepsFit s (blockBoundary s) :=
  (keepsFit_measured s).trans (.foldl (fun t c => keepsFit_raise .warned c t) s.warnedNow _)

/-! ### Observations -/

theorem keepsFit_setHighway (h : Nat) (y : Highway) (s : State) : KeepsFit s (s.setHighway h y) := .of_eq rfl rfl

theorem keepsFit_setHighway_raiseHw (k : HwKind) (h : Nat) (y : Highway) (s : State) :
    KeepsFit s (raiseHw k h (s.setHighway h y)) := .of_eq (by simp) (by simp)

theorem keepsFit_makeObs (s : State) (h : Nat) : KeepsFit s (makeObs s h) := by
  rcases makeObs_cases h s with ⟨he, _⟩ | ⟨y, _, ⟨_, he⟩ | ⟨_, he⟩ | ⟨_, _, he⟩⟩ <;> rw [he]
  · exact .refl s
  · exact keepsFit_setHighway_raiseHw ..
  · exact keepsFit_setHighway_raiseHw ..
  · exact keepsFit_setHighway ..

theorem keepsFit_takeSync {brings : Highway → Bool} {act : Nat → Highway → State → State}
    (hact : ∀ h y x, KeepsFit x (act h y x)) (h : Nat) (s : State) : KeepsFit s (takeSync brings act h s) := by
  unfold takeSync
  cases tget h s.sync with
  | none => exact .refl s
  | some y =>
    dsimp only
    split
    · exact hact h y s
    · exact .refl s

/-! ### The ends of searches -/

theorem keepsFit_handOff (un : SearchUnit) (b : Bool) (s : State) : KeepsFit s (handOff un b s) := by
  unfold handOff
  cases hr : s.rec? un.ctx with
  | none => exact .refl s
  | some r =>
    dsimp only
    split
    · refine .trans ?_ (keepsFit_raise ..)
      exact .write hr rfl rfl rfl
    · next first second _ =>
      refine (keepsFit_relocate un.ctx first second un.shadow s).trans ?_
      refine .trans (.trans ?_ (keepsFit_relocationEffects ..)) (keepsFit_raise ..)
      exact .modRec (by intro _; rfl) ..

theorem keepsFit_completeSearch (u : Nat) (un : SearchUnit) (b : Bool) (s : State) : KeepsFit s (completeSearch u un b s) :=
  ((keepsFit_handOff un b s).trans (keepsFit_setLink ..)).trans (keepsFit_freeUnit ..)

theorem keepsFit_failSearch (u : Nat) (un : SearchUnit) (b : Bool) (s : State) : KeepsFit s (failSearch u un b s) :=
  ((keepsFit_raise ..).trans (keepsFit_setLink ..)).trans (keepsFit_freeUnit ..)

theorem keepsFit_finishUnit (s : State) (u : Nat) : KeepsFit s (finishUnit s u) := by
  unfold finishUnit
  cases tget u s.units with
  | none => exact .refl s
  | some un =>
    dsimp only
    split
    · exact keepsFit_completeSearch ..
    · split
      · exact keepsFit_failSearch ..
      · exact .refl s

theorem keepsFit_takeSearchEnd (ends : SearchUnit → Bool) {act : Nat → SearchUnit → Bool → State → State}
    (hact : ∀ u un b x, KeepsFit x (act u un b x)) (u : Nat) (s : State) : KeepsFit s (takeSearchEnd ends act u s) := by
  rcases takeSearchEnd_cases ends act u s with h | ⟨_, x, b, _, _, h⟩ <;> rw [h]
  · exact .refl s
  · exact (keepsFit_settle s).trans (hact u x b _)

/-! ### A frame -/

theorem keepsFit_boundaryTaken (s : State) : KeepsFit s (boundaryTaken s) := by
  unfold boundaryTaken
  split
  · exact (keepsFit_settle s).trans (keepsFit_blockBoundary _)
  · exact .refl s

theorem keepsFit_closeFrame (s : State) : KeepsFit s (closeFrame s) := by
  have hobserved : KeepsFit s (allObserved s) := .foldl keepsFit_makeObs _ s
  exact ((hobserved.trans (keepsFit_boundaryTaken _)).trans (keepsFit_settle _)).trans (.foldl keepsFit_finishUnit _ _)

/-- A FIXED gain follows G0, which the profile's range bounds (R156). -/
theorem gainsFit_openRecord {s : State} (hs : ProfilesFit s) {r : Record} (hr : GainsFit r) : GainsFit (openRecord s r) := by
  obtain ⟨hrx, htx⟩ := levelFits_of_profileFits (hs.profile r.id.profile)
  exact ⟨followFixed_gain_le hrx hr.1, followFixed_gain_le htx hr.2⟩

theorem keepsFit_openFrame (s : State) : KeepsFit s (openFrame s) :=
  .of_map (fun _ => openRecord s.startLines) rfl rfl (fun _ _ => rfl) fun hp _ _ =>
    gainsFit_openRecord (s := s.startLines) hp

/-- The samples of a frame move level averages and no gain (R159). -/
theorem gainsFit_frameRecord {r : Record} (hr : GainsFit r) (s : State) (rIn sIn : List Sample) :
    GainsFit (s.frameRecord rIn sIn r) := by
  unfold State.frameRecord
  split
  · exact hr
  · split <;> exact hr

theorem keepsFit_frameTaken (rIn sIn : List Sample) (marks : List SyncMarks) (a : State) :
    KeepsFit a (frameTaken rIn sIn marks a) :=
  .of_map (fun _ => (shifted a).frameRecord rIn sIn) rfl rfl (fun _ _ => frameRecord_id ..) fun _ _ _ hr =>
    gainsFit_frameRecord hr (shifted a) rIn sIn

theorem keepsFit_frame (rIn sIn : List Sample) (marks : List SyncMarks) (s : State) :
    KeepsFit s (frameTaken rIn sIn marks (atFrame s)) :=
  ((keepsFit_closeFrame s).trans (keepsFit_openFrame _)).trans (keepsFit_frameTaken rIn sIn marks _)

end Sys2Proof.ProfilesAndGains


/-! PROOFS. Every command, and so every step, keeps profiles and gains in range and records on the sixteen profiles: BIND, RETIRE,
RESET HIGHWAY, SET PROFILE and AMEND PROFILE touch a profile or which one a record names (R165, R170, R174); O57. -/

namespace Sys2Proof.ProfilesAndGains

open Sys2Proof Sys2Proof.Machine Sys2Proof.TapSegments Sys2Proof.FrameTiming

/-! ### Commands on a bound record -/

theorem keepsFit_keyed {hw slot : Byte} {s : State} {f : Nat → Record → State × Reply}
    (hf : ∀ c r, s.rec? c = some r → KeepsFit s (f c r).1) : KeepsFit s (keyed hw slot s f).1 := by
  rcases keyed_cases hw slot s f with ⟨_, h⟩ | ⟨_, ⟨_, h⟩ | ⟨c, r, _, hr, h⟩⟩ <;> rw [h]
  · exact .refl s
  · exact .refl s
  · exact hf c r hr

theorem keepsFit_engageCmd (hw slot : Byte) (s : State) : KeepsFit s (engageCmd hw slot s).1 :=
  keepsFit_keyed fun c r _ => by
    split
    · exact keepsFit_changeMain ..
    · exact .refl s

theorem keepsFit_holdCmd (hw slot : Byte) (s : State) : KeepsFit s (holdCmd hw slot s).1 :=
  keepsFit_keyed fun c r hr => by
    split
    · exact .refl s
    · refine .trans ?_ (keepsFit_changeMain ..)
      exact .write hr rfl rfl rfl

theorem keepsFit_resumeCmd (hw slot : Byte) (s : State) : KeepsFit s (resumeCmd hw slot s).1 :=
  keepsFit_keyed fun c r _ => by
    split
    · exact keepsFit_changeMain ..
    · exact .refl s

theorem keepsFit_restoreCmd (hw slot : Byte) (s : State) : KeepsFit s (restoreCmd hw slot s).1 :=
  keepsFit_keyed fun c r _ => by
    split
    · exact .refl s
    · have hclear : ∀ t : State, KeepsFit t (t.modRec c fun q => { q with div := soundGroup, conv := clearConv }) := fun t =>
        .modRec (by intro _; rfl) c t
      refine .trans ?_ (keepsFit_requestSearch ..)
      exact ((keepsFit_changeMain .acquire c false s).trans (hclear _)).trans (.of_eq rfl rfl)

theorem keepsFit_searchCmd (hw slot : Byte) (s : State) : KeepsFit s (searchCmd hw slot s).1 :=
  keepsFit_keyed fun c r _ => by
    split
    · exact .refl s
    · split
      · exact keepsFit_requestSearch ..
      · exact .refl s

/-! ### Commands on windows and coefficients -/

theorem keepsFit_respanSearch (c : Nat) (r : Record) (s : State) : KeepsFit s (respanSearch c r s) := by
  unfold respanSearch
  split
  · exact .refl s
  · cases r.link with
    | none => exact keepsFit_requestSearch ..
    | queued => exact .refl s
    | searching u =>
      refine .trans ?_ (keepsFit_freeUnit ..)
      exact (keepsFit_setLink .queued c s).trans (.of_eq rfl rfl)

theorem keepsFit_amendSpanCmd (hw slot span : Byte) (s : State) : KeepsFit s (amendSpanCmd hw slot span s).1 :=
  keepsFit_keyed fun c r hr => by
    dsimp only
    split
    · exact .refl s
    · refine .trans ?_ (keepsFit_respanSearch ..)
      exact .write hr rfl rfl rfl

theorem keepsFit_amendWindowsAccepted (c : Nat) (r : Record) (first : Place) (second : Option Place) (s : State) :
    KeepsFit s (amendWindowsAccepted c r first second s) :=
  ((keepsFit_endSearch c false s).trans (keepsFit_relocate ..)).trans (keepsFit_relocationEffects ..)

theorem keepsFit_amendWindowsCmd (hw slot b1 l1 b2 l2 : Byte) (s : State) :
    KeepsFit s (amendWindowsCmd hw slot b1 l1 b2 l2 s).1 :=
  keepsFit_keyed fun c r _ => by
    dsimp only
    split
    · exact .refl s
    · split
      · exact .refl s
      · split
        · exact .refl s
        · split
          · exact .refl s
          · split <;> exact keepsFit_amendWindowsAccepted ..

theorem keepsFit_readTapsCmd (hw slot win pos : Byte) (s : State) : KeepsFit s (readTapsCmd hw slot win pos s).1 :=
  keepsFit_keyed fun c r _ => by split <;> exact .refl s

theorem keepsFit_writeTapsCmd (hw slot win pos : Byte) (coeffs : List Coeff) (s : State) :
    KeepsFit s (writeTapsCmd hw slot win pos coeffs s).1 :=
  keepsFit_keyed fun c r _ => by
    split
    · exact .refl s
    · split
      · exact .refl s
      · exact .of_eq rfl rfl

/-! ### BIND and RETIRE -/

/-- The record that BIND fills in takes its gains from a profile in range, within that profile's limits (R12). -/
theorem gainsFit_bindRecord {p : Profile} (hp : profileFits p = true) (c hw slot profile : Nat) (stamp : BitVec 16)
    (segs : List Nat) (short observe : Bool) : GainsFit (bindRecord c hw slot profile stamp p segs short observe) := by
  obtain ⟨hrx, htx⟩ := levelFits_of_profileFits hp
  exact ⟨bindLevel_gain_le hrx, bindLevel_gain_le htx⟩

theorem keepsFit_bindAccepted (hw slot flags : Byte) {p : Nat} (hp : p < nProfiles) (c g : Nat) (short : Bool) (s : State) :
    KeepsFit s (bindAccepted hw slot flags p c g short s).1 := by
  unfold bindAccepted
  dsimp only
  generalize hq : bindRecord c hw.toNat slot.toNat p s.stamp (s.profile p) (s.free.take g) short (flags.getLsbD 0) = q
  have hgains : ProfilesFit s → GainsFit q := fun hs => hq ▸ gainsFit_bindRecord (hs.profile p) ..
  have hnamed : q.id.profile < nProfiles := by rw [← hq]; exact hp
  have hused : ∀ t : State, t.ctxs = tset c q s.ctxs → t.profiles = s.profiles → KeepsFit s (useProfile p t) :=
    fun _ hc hprofiles => (KeepsFit.put hc hprofiles (fun hs _ => hgains hs) fun _ => hnamed).useProfile fun _ => hp
  split
  · exact hused _ rfl rfl
  · refine .trans ?_ (keepsFit_requestSearch ..)
    exact hused _ rfl rfl

theorem profileInRange_iff {profile : Byte} : profileInRange profile = true ↔ profile.toNat < nProfiles :=
  decide_eq_true_iff

/-- BIND's operand names one of the sixteen profiles, or is AUTO, under which one is picked (R16, R17). -/
theorem pickProfile_lt {s : State} {hw slot profile : Byte} {p : Nat}
    (hrange : profileInRange profile = true ∨ isAuto profile = true) (h : s.pickProfile hw slot profile = some p) :
    p < nProfiles := by
  unfold State.pickProfile at h
  split at h
  · exact List.mem_range.1 (List.mem_of_find?_eq_some h)
  · next hauto => exact Option.some.inj h ▸ profileInRange_iff.1 (hrange.resolve_right hauto)

theorem keepsFit_bindCmd (hw slot profile flags : Byte) (s : State) : KeepsFit s (bindCmd hw slot profile flags s).1 := by
  unfold bindCmd
  split
  · exact .refl s
  · next hrange =>
    split
    · exact .refl s
    · split
      · exact .refl s
      · split
        · exact .refl s
        · next hpick =>
          simp only [Bool.or_eq_true, Bool.not_eq_true', not_or, Bool.not_eq_false] at hrange
          obtain ⟨_, hnames⟩ := hrange
          have hp := pickProfile_lt hnames hpick
          split
          · exact .refl s
          · split
            · exact .refl s
            · exact keepsFit_bindAccepted hw slot flags hp ..

/-- The in-use count lowered is that of the profile the record names (R20). -/
theorem keepsFit_retire (s : State) (c : Nat) : KeepsFit s (retire c s) := by
  unfold retire
  cases hr : s.rec? c with
  | none => exact .refl s
  | some r =>
    refine KeepsFit.unuseProfile ?_ fun hs => hs.2 _ (mem_of_tget hr)
    exact (keepsFit_endSearch c false s).trans (.of_subset (fun _ he => (mem_tdel.1 he).1) rfl)

theorem keepsFit_retireCmd (hw slot : Byte) (s : State) : KeepsFit s (retireCmd hw slot s).1 :=
  keepsFit_keyed fun c _ _ => keepsFit_retire s c

/-! ### Commands on profiles -/

theorem keepsFit_setProfileCmd (profile : Byte) (f : ProfileMsg) (s : State) : KeepsFit s (setProfileCmd profile f s).1 := by
  unfold setProfileCmd
  split
  · exact .refl s
  · next hrange =>
    obtain ⟨hprofile, hsel⟩ : profileInRange profile = true ∧ selectorOk f = true := by simpa using hrange
    split
    · dsimp only
      split
      · exact .refl s
      · next hlimits =>
        obtain ⟨hrx, htx⟩ : limitsOk f.rx = true ∧ limitsOk f.tx = true := by simpa using hlimits
        split
        · exact .refl s
        · exact (KeepsFit.refl s).setProfile (fun _ => profileFits_storedProfile hsel hrx htx ..) fun _ =>
            profileInRange_iff.1 hprofile
    · exact .refl s

theorem keepsFit_readProfileCmd (profile : Byte) (s : State) : KeepsFit s (readProfileCmd profile s).1 := by
  unfold readProfileCmd
  split <;> exact .refl s

/-- The record keeps its gains and names the profile of the operand; the two in-use counts follow (R174). -/
theorem keepsFit_amendProfileCmd (hw slot profile : Byte) (s : State) : KeepsFit s (amendProfileCmd hw slot profile s).1 := by
  unfold amendProfileCmd
  split
  · exact .refl s
  · next hrange =>
    have hp : profile.toNat < nProfiles := profileInRange_iff.1 (by simpa using hrange)
    refine keepsFit_keyed fun c r hr => ?_
    have hmem := mem_of_tget hr
    dsimp only
    split
    · exact .refl s
    · refine (KeepsFit.unuseProfile ?_ fun hs => hs.2 _ hmem).useProfile fun _ => hp
      exact .put rfl rfl (fun _ h => h _ hmem) fun _ => hp

/-! ### Part-wide commands -/

theorem keepsFit_configureCmd (e r m d u : Byte) (s : State) : KeepsFit s (configureCmd e r m d u s).1 := by
  rcases configureCmd_cases e r m d u s with h | ⟨mode, n, _, _, h⟩ <;> rw [h]
  · exact .refl s
  · have hframe := configured_frame e r m mode n s
    exact .of_eq (congrArg State.ctxs hframe :) (congrArg State.profiles hframe :)

theorem keepsFit_resetHighwayCmd (hw : Byte) (s : State) : KeepsFit s (resetHighwayCmd hw s).1 := by
  unfold resetHighwayCmd
  split
  · exact .refl s
  · dsimp only
    rw [resetHighway_eq]
    refine (KeepsFit.foldl keepsFit_retire (s.boundOn hw.toNat) s).trans ?_
    unfold silenced
    split <;> exact .of_eq rfl rfl

theorem keepsFit_fetchNoticeCmd (s : State) : KeepsFit s (fetchNoticeCmd s).1 := by
  unfold fetchNoticeCmd
  cases s.pendingHighway with
  | some h => exact .of_eq rfl rfl
  | none =>
    cases hc : s.pendingContext with
    | none => exact .refl s
    | some e => exact .write_mem (List.mem_of_find?_eq_some hc) rfl rfl rfl

/-! ### Every step -/

/-- What a link command does. -/
theorem keepsFit_linkEffect {i : Instr} {f : State → State × Reply} (h : linkEffect i = some f) (s : State) :
    KeepsFit s (f s).1 := by
  cases i <;> simp only [linkEffect, Option.some.injEq, reduceCtorEq] at h <;> subst h
  case bind => exact keepsFit_bindCmd ..
  case retire => exact keepsFit_retireCmd ..
  case engage => exact keepsFit_engageCmd ..
  case hold => exact keepsFit_holdCmd ..
  case resume => exact keepsFit_resumeCmd ..
  case restore => exact keepsFit_restoreCmd ..
  case search => exact keepsFit_searchCmd ..
  case query => exact keepsFit_keyed fun _ _ _ => .refl s
  case amendSpan => exact keepsFit_amendSpanCmd ..
  case amendWindows => exact keepsFit_amendWindowsCmd ..
  case amendProfile => exact keepsFit_amendProfileCmd ..
  case readTaps => exact keepsFit_readTapsCmd ..
  case writeTaps => exact keepsFit_writeTapsCmd ..
  case readPool => exact .refl s
  case setProfile => exact keepsFit_setProfileCmd ..
  case readProfile => exact keepsFit_readProfileCmd ..
  case configure => exact keepsFit_configureCmd ..
  case readConfig => exact .refl s
  case resetHighway => exact keepsFit_resetHighwayCmd ..
  case resetStamp => exact .of_eq rfl rfl
  case fetchNotice => exact keepsFit_fetchNoticeCmd s

theorem keepsFit_command {i : Instr} {f : State → State × Reply} (h : linkEffect i = some f) (n : Nat) (s : State) :
    KeepsFit s (s.command n f) :=
  ((keepsFit_settle s).trans (keepsFit_linkEffect h _)).trans (.of_eq rfl rfl)

theorem keepsFit_transaction (bytes : List Byte) (s : State) : KeepsFit s (transaction bytes s) := by
  rcases transaction_cases bytes s with ⟨r, l, h⟩ | ⟨i, f, _, hf, h⟩ <;> rw [h]
  · exact .of_eq rfl rfl
  · exact keepsFit_command hf _ s

/-- After power-on no context is bound and the profiles are those of R168. -/
theorem keepsFit_powerOn (s : State) : KeepsFit s { State.reset with pending := s.pending } := by
  have hprofiles : State.reset.profiles.map (·.1) = List.range nProfiles ∧ ProfilesFit State.reset :=
    profilesSafe_iff.1 (by decide)
  exact ⟨fun _ => hprofiles.2, fun _ _ => List.forall_mem_nil _, fun _ => ⟨hprofiles.1, List.forall_mem_nil _⟩⟩

theorem keepsFit_exec (i : Instr) (s : State) : ∃ t, exec i s = .next t ∧ KeepsFit s t := by
  cases hf : linkEffect i with
  | some f =>
    obtain ⟨n, hn⟩ := exec_of_linkEffect hf
    exact ⟨_, hn s, keepsFit_command hf n s⟩
  | none =>
    cases i <;> simp only [linkEffect, reduceCtorEq] at hf
    case powerOn => exact ⟨_, rfl, keepsFit_powerOn s⟩
    case frame rIn sIn marks => exact ⟨_, takes_frame rIn sIn marks s, keepsFit_frame rIn sIn marks s⟩
    case lock => exact ⟨_, rfl, keepsFit_takeSync (fun h _ x => keepsFit_setHighway h _ x) _ s⟩
    case syncLost => exact ⟨_, rfl, keepsFit_takeSync (fun h _ x => keepsFit_setHighway_raiseHw .syncLost h _ x) _ s⟩
    case syncBack => exact ⟨_, rfl, keepsFit_takeSync (fun h _ x => keepsFit_setHighway_raiseHw .syncBack h _ x) _ s⟩
    case blockBoundary =>
      refine ⟨_, rfl, ?_⟩
      split
      · exact (keepsFit_settle s).trans (keepsFit_blockBoundary _)
      · exact .refl s
    case searchCompletion => exact ⟨_, rfl, keepsFit_takeSearchEnd _ keepsFit_completeSearch _ s⟩
    case searchFailure => exact ⟨_, rfl, keepsFit_takeSearchEnd _ keepsFit_failSearch _ s⟩
    case read => exact ⟨_, rfl, .of_eq rfl rfl⟩
    case commandMessage => exact ⟨_, rfl, keepsFit_transaction _ s⟩
    all_goals exact ⟨_, rfl, keepsFit_takeDue _ s⟩

theorem keepsFit_step {s t : State} (h : step s = .next t) : KeepsFit s t := by
  unfold step at h
  split at h
  · exact Host.Outcome.next.inj h ▸ .refl s
  · next i rest _ =>
    obtain ⟨t', ht, hkept⟩ := keepsFit_exec i { s with pending := rest }
    have hqueue : KeepsFit s { s with pending := rest } := .of_eq rfl rfl
    exact Host.Outcome.next.inj (ht.symm.trans h) ▸ hqueue.trans hkept

/-- Settles O57: every step keeps the ranges; that records name one of the sixteen profiles keeps the numbers of the table, and a
number without an entry stands for a profile in range. -/
theorem profilesAndGainsKept : Obligations.ProfilesAndGainsKept := by
  refine ⟨fun s t hprofiles huses h => ?_, fun s t hgains hprofiles h => ?_⟩
  · obtain ⟨hnumbers, hfit⟩ := profilesSafe_iff.1 hprofiles
    have hkept := keepsFit_step h
    obtain ⟨hnumbers', _⟩ := hkept.named ⟨hnumbers, profile_lt_of_usesSafe huses⟩
    exact profilesSafe_iff.2 ⟨hnumbers', hkept.profiles hfit⟩
  · obtain ⟨_, hfit⟩ := profilesSafe_iff.1 hprofiles
    exact gainsSafe_iff.2 ((keepsFit_step h).gains hfit (gainsSafe_iff.1 hgains))

end Sys2Proof.ProfilesAndGains
